-- ==== Sys2Proof/Word.lean ====
section
/-! DEFINITION. Words of the ports and of the link: bytes and 16-bit beats. -/
namespace Sys2Proof

/-- A byte of the control link or of buffer memory. -/
abbrev Byte := BitVec 8

/-- A 16-bit beat of FIP_D or SOP_D (01 1.1, 09 R155). -/
abbrev Beat := BitVec 16

end Sys2Proof
end

