-- ==== Sys2Proof/Syntax.lean ====
section
/-! DEFINITION. The commands of the part: one constructor per row of spec/opcode_table.json, in the table's order, with the operands that the row's port, line or device brings. Requests of the control link carry no operand here: their fields are the body of the request at the head of the request queue (11 R173). -/
namespace Sys2Proof

/-- What the DRAM word of an access gives when it is read (10 R165). -/
inductive EccOutcome where
  | clean
  | singleBit
  | uncorrectable
  deriving DecidableEq, Repr, Inhabited

/-- The four fields of a profile record (12 R184). -/
structure ProfileFields where
  f16 : Nat
  cxOff : Int
  cyOff : Int
  textureMin : Nat
  deriving DecidableEq, Repr, Inhabited

/-- The two fields of a protection record (12 R184). -/
structure ProtectionFields where
  mask : BitVec 4
  locked : Bool
  deriving DecidableEq, Repr, Inhabited

/-- What the read-back of a burn finds in the target record (12 R189): what was meant, or other fields with a CRC. -/
inductive ReadBack where
  | asMeant
  | profile (fields : ProfileFields) (crc : BitVec 16)
  | protection (fields : ProtectionFields) (crc : BitVec 16)
  deriving DecidableEq, Repr, Inhabited

/-- One constructor per row of spec/opcode_table.json. -/
inductive Instr where
  /-- A header line: the level of FIP_FV while it arrives, and its beats after the tag 0xA5A5 (01 R2, R4). -/
  | headerLine (fv : Bool) (beats : List Beat)
  /-- A picture or malformed line: the level of FIP_FV, the tag, and the beats after the tag (01 R2, R5). -/
  | pictureLine (fv : Bool) (tag : Beat) (beats : List Beat)
  | frameEnd
  | frameAbort
  | inputFault
  | prepareComplete
  | trackStart
  | searchComplete
  | calibrationDecision
  | calibrationTimeout
  | noSweep
  | stalled
  | trackLocked
  | trackLost
  | patchLost
  | paceChange
  | closureAccepted
  | selectionComplete
  | takeKey
  | keyLimit
  | tailKeyDecision
  | finalKeyMark
  | seamJobDone
  | closureJobBegin
  | commitEnter
  | finalCommitEnter
  | stripOpenRequest
  | commitComplete
  /-- The access in progress completes; the operand is what its ECC word gives (10 R165). -/
  | memoryAccessComplete (outcome : EccOutcome)
  | transferStart
  | sopLineStart
  /-- SOP_RDY takes the given level (09 R156). -/
  | sopRdyChange (level : Bool)
  | transferComplete
  | cutTrailerDone
  | linkTransactionStart
  | messageSent
  /-- LK_SEL_N rises; the operand is the bytes clocked in since the last link command of the transaction (11 R170). -/
  | linkTransactionEnd (tail : List Byte)
  /-- The bytes clocked into the receiver, up to the last CRC byte of a frame (11 R172, R173). -/
  | requestReceived (bytes : List Byte)
  | requestDispatch
  | unknownType
  | identGet
  | statusGet
  | faultClear
  | sessionArm
  | columnMapBuilt
  | sessionStart
  | sessionTune
  | sessionStop
  | sessionAbort
  | sessionRelease
  | sessionSummaryGet
  | keyGet
  | stripGet
  | gyroPut
  | outputResumeRetry
  | outputResumeSkip
  | profileRead
  | profileStage
  | profileBurn
  | profileProtect
  | profileLock
  | profileReload
  /-- A burn completes; the operand is what its read-back finds (12 R189). -/
  | burnComplete (found : ReadBack)
  | engineReset
  | pinReset
  /-- The bytes clocked into the receiver, up to the byte at which it discards a frame (11 R172). -/
  | linkFrameDiscard (bytes : List Byte)
  deriving DecidableEq, Repr

end Sys2Proof
end

