-- ==== Sys2Proof/Config.lean ====
section
/-! DEFINITION. What the part fixes for good (sizes of tables, queues and memory areas) and the free values: the values the spec leaves open, as constants without a body (notes/assumptions/5.md). -/
namespace Sys2Proof.Config

/-- Places of the request queue (11 R173). -/
def requestPlaces : Nat := 8
/-- Places of the reply queue (11 R174). -/
def replyPlaces : Nat := 9
/-- Places of the notice queue (11 R176). -/
def noticePlaces : Nat := 16
/-- Places of the seam job queue (06 R106). -/
def seamPlaces : Nat := 2
/-- Places of the commit queue (07 R122). -/
def commitPlaces : Nat := 2
/-- Frame slots that may be KEY at one time (01 R10). -/
def keySlots : Nat := 3
/-- Records of the key table (04 R60). -/
def keyRecords : Nat := 64
/-- Ring strip slots (08 R137). -/
def ringSlots : Nat := 128
/-- Held strip slots (08 R137). -/
def heldSlots : Nat := 17
/-- Patch records of a set (02 R22). -/
def patchRecords : Nat := 16
/-- Where a 16-bit count that holds at its top stops (01 R8, 04 R73, 07 R130, 08 R137, 09 R153). -/
def countTop : Nat := 65535
/-- The clamp of a GYRO.PUT increment, in microradians (03 R48). -/
def gyroIncrementTop : Int := 200000
/-- The clamp of a gyro sum, in microradians (03 R48). -/
def gyroSumTop : Int := 2000000

/-- Bytes of the stacked DRAM (10 R161). -/
def dramBytes : Nat := 134217728
/-- Bytes of one frame slot (10 R161). -/
def frameSlotBytes : Nat := 4941824
/-- Bytes of one strip slot (10 R161). -/
def stripSlotBytes : Nat := 294912

/-- FREE VALUE (10 R169): a byte of a word whose write pin reset cut off. -/
opaque cutWriteByte : Nat → Byte
/-- FREE VALUE (10 R169): whether a word whose write pin reset cut off reads as uncorrectable. -/
opaque cutWriteBad : Nat → Bool
/-- FREE VALUE (12 R189): a field value of a profile record whose burn pin reset cut off. -/
opaque cutBurnField : Nat → Nat
/-- FREE VALUE (12 R189): a signed field value of a profile record whose burn pin reset cut off. -/
opaque cutBurnOffset : Nat → BitVec 16
/-- FREE VALUE (12 R189): the CRC written to a record whose burn pin reset cut off; where it happens to match the fields, the record's CRC is its inverse. -/
opaque cutBurnCrc : Nat → BitVec 16
/-- FREE VALUE (01 R5, R19, R20, 10 R167; notes/assumptions/40.md): what a block that writes whole words puts at an address of a word where the spec gives it no value to write. -/
opaque openByte : Nat → Byte
/-- FREE VALUE (12 R189): the mask of a protection record whose burn pin reset cut off. -/
opaque cutBurnMask : Nat → BitVec 4
/-- FREE VALUE (12 R189): the lock flag of a protection record whose burn pin reset cut off. -/
opaque cutBurnLock : Nat → Bool

end Sys2Proof.Config
end

