-- ==== Sys2Proof/Machine/Arith.lean ====
section
/-! DEFINITION. Arithmetic of the manual: the rounding of R1, clamps, the CRC-16 of R171, big-endian fields, the sine and cosine that R16 needs. -/
namespace Sys2Proof.Machine

/-- 00 R1: the quotient `a / b` (`b` positive) to the nearest integer, halves away from zero. -/
def roundDiv (a b : Int) : Int :=
  if 0 ≤ a then (2 * a + b) / (2 * b) else -((2 * (-a) + b) / (2 * b))

/-- `ceil (a / b)` for positive `b` (00 R1: rounding up is written ceil). -/
def ceilDiv (a b : Int) : Int := (a + b - 1) / b

/-- `x` brought into `lo..hi`. -/
def clampInt (lo hi x : Int) : Int := max lo (min hi x)

/-- `x` brought into `lo..hi`, as the clamped fields of 05 R83. -/
def clampNat (lo hi x : Nat) : Nat := max lo (min hi x)

/-- A count that is raised by `n` and holds at `top` (01 R8 and the other counts that hold). -/
def addHold (top x n : Nat) : Nat := min top (x + n)

/-- The numbers `lo, lo+1, …` of a half-open span `[lo, hi)`. -/
def spanInts (lo hi : Int) : List Int := (List.range (hi - lo).toNat).map (fun k : Nat => lo + (k : Int))

/-- The sum of a list of integers. -/
def sumInts (l : List Int) : Int := l.foldl (· + ·) 0

/-- The least of a nonempty list, `d` for an empty one. -/
def leastInt (d : Int) : List Int → Int
  | [] => d
  | x :: xs => xs.foldl min x

/-- The greatest of a nonempty list, `d` for an empty one. -/
def greatestInt (d : Int) : List Int → Int
  | [] => d
  | x :: xs => xs.foldl max x

/-- `x` put into a list in the order `le`, before the first entry it does not come after. -/
def insertBy {α : Type} (le : α → α → Bool) (x : α) : List α → List α
  | [] => [x]
  | y :: ys => if le x y then x :: y :: ys else y :: insertBy le x ys

/-- A list in the order `le`; equal entries are kept as separate entries (03 R41). -/
def sortBy {α : Type} (le : α → α → Bool) : List α → List α
  | [] => []
  | x :: xs => insertBy le x (sortBy le xs)

/-! ### The CRC-16 of the link and of the profile store (R171, R184) -/

/-- One bit step of the CRC register: shift left, the polynomial 0x1021 when the top bit leaves (R171). -/
def crcShift (r : BitVec 16) : BitVec 16 :=
  if r.msb then (r <<< 1) ^^^ 0x1021#16 else r <<< 1

/-- One byte into the CRC register, most significant bit first (R171). -/
def crcByte (r : BitVec 16) (b : Byte) : BitVec 16 :=
  let r := r ^^^ ((b.setWidth 16) <<< 8)
  crcShift (crcShift (crcShift (crcShift (crcShift (crcShift (crcShift (crcShift r)))))))

/-- R171: polynomial 0x1021, initial value 0xFFFF, no reflection, no final value. -/
def crc16 (bytes : List Byte) : BitVec 16 := bytes.foldl crcByte 0xFFFF#16

/-! ### Fields of `n` bytes, most significant byte first (R171) -/

/-- The field of `n` bytes that holds `v`, in two's complement when `v` is negative. -/
def field (n : Nat) (v : Int) : List Byte :=
  ((List.range n).map (fun k : Nat => BitVec.ofInt 8 (v / (256 : Int) ^ k))).reverse

/-- The unsigned value of a field. -/
def fieldNat (bs : List Byte) : Nat := bs.foldl (fun acc b => acc * 256 + b.toNat) 0

/-- The two's-complement value of a field. -/
def fieldInt (bs : List Byte) : Int :=
  let u := fieldNat bs
  if 2 * u < 256 ^ bs.length then (u : Int) else (u : Int) - (256 : Int) ^ bs.length

/-! ### Sine and cosine (01 R16)

DEDUCED (notes/assumptions/11.md): R16 rounds the exact real value once. The series below are carried in fixed point with
160 bits after the point, far finer than any distance from a half at which two entries of a map could be confused. -/

/-- One in the fixed point of the series. -/
def trigOne : Int := 2 ^ 160

/-- The sums of the even and of the odd terms of the exponential series of `i·p/q`: cosine and sine of `p/q`, with |p/q| at most 1. `term` is `trigOne · (p/q)^k / k!`. -/
def trigSeries (p q : Int) : Nat → Nat → Int → Int × Int → Int × Int
  | 0, _, _, acc => acc
  | fuel + 1, k, term, (c, s) =>
    let acc : Int × Int :=
      match k % 4 with
      | 0 => (c + term, s)
      | 1 => (c, s + term)
      | 2 => (c - term, s)
      | _ => (c, s - term)
    trigSeries p q fuel (k + 1) (term * p / (q * ((k : Int) + 1))) acc

/-- Cosine and sine of the angle `p/q` radians, in units of `1/trigOne`. -/
def cosSin (p q : Int) : Int × Int := trigSeries p q 48 0 trigOne (0, 0)

/-- The numerator of pi over `piDen` (62 decimals). -/
def piNum : Int := 314159265358979323846264338327950288419716939937510582097494459
/-- The denominator of pi. -/
def piDen : Int := 10 ^ 62

end Sys2Proof.Machine
end

