-- ==== Sys2Proof/Machine/ProfileCrc.lean ====
section
/-! DEFINITION. The CRC-16 of the records of the profile store (12 R184). -/
namespace Sys2Proof.Machine

/-- 12 R184: the CRC over f16, cx_off, cy_off and texture_min, encoded as the link encodes them (notes/assumptions/12.md). -/
def profileCrc (p : ProfileFields) : BitVec 16 :=
  crc16 (field 3 p.f16 ++ field 2 p.cxOff ++ field 2 p.cyOff ++ field 2 p.textureMin)

/-- 12 R184: the CRC over the protect mask and factory_locked. -/
def protectionCrc (p : ProtectionFields) : BitVec 16 :=
  crc16 [p.mask.setWidth 8, if p.locked then 1#8 else 0#8]

end Sys2Proof.Machine
end

