-- ==== Sys2Proof/Machine/State.lean ====
section
/-! DEFINITION. The state of the part as plain data: every register, table, queue, buffer, mark and pin that spec/ gives it, the work each unit has in hand, the queue of waiting commands, and the state right after reset. -/
namespace Sys2Proof.Machine

/-! ### Frame ingest (01) -/

/-- 01 R10: the states of a frame slot. -/
inductive SlotState where
  | free | filling | filledWait | preparing | queued | tracking | last | key
  deriving DecidableEq, Repr, Inhabited

/-- 03 R48: a yaw sum, a pitch sum (microradians) and the received mark; the accumulator and its snapshots. -/
structure Gyro where
  yaw : Int := 0
  pitch : Int := 0
  received : Bool := false
  deriving DecidableEq, Repr, Inhabited

/-- 01 R3: the frame record of a slot that is not FREE. -/
structure FrameRecord where
  counter : BitVec 8
  exposure : Nat
  snapshot : Gyro
  stored : Option Nat
  interval : Option Nat
  deriving DecidableEq, Repr, Inhabited

/-- 01 R3, R10: one frame slot. -/
structure FrameSlot where
  state : SlotState := .free
  record : Option FrameRecord := none
  deriving DecidableEq, Repr, Inhabited

/-- A write of one 8-byte ECC word: its address, and for each byte the new value or none where the byte is left (10 R165, R167). `holes` and `spoilt` are what BLU adds to the strip record when the write is made (07 R130, R133). -/
structure WordWrite where
  addr : Nat
  bytes : List (Option Byte)
  holes : Nat := 0
  spoilt : Bool := false
  deriving DecidableEq, Repr, Inhabited

/-- 10 R163: a line buffer that holds a line not yet written: the slot and the writes still to make. -/
structure LineBuffer where
  slot : Fin 8
  writes : List WordWrite
  deriving DecidableEq, Repr, Inhabited

/-- The ECC words a job has read so far: those done, and those of them whose read was uncorrectable (10 R166). -/
structure ReadSet where
  done : List Nat := []
  failed : List Nat := []
  deriving DecidableEq, Repr, Inhabited

/-- 01 1.5: the running prepare pass: its slot, its reads, and how many of its writes are made. -/
structure Prep where
  slot : Fin 8
  rd : ReadSet := {}
  written : Nat := 0
  deriving DecidableEq, Repr, Inhabited

/-- 01 R15: the column map of the session. -/
structure ColumnMap where
  cx16 : Int
  cy16 : Int
  xs : List Int
  k : List Int
  deriving DecidableEq, Repr, Inhabited

/-- The state of the ingest unit (01 1.2, R14, R15; 10 R163). `faultReport` is the INPUT_FAULT report that SWC has not taken yet (R9). -/
structure Igu where
  slots : Vector FrameSlot 8
  lastCounter : Option (BitVec 8)
  nextStored : Nat
  geoRun : Nat
  dropped : Nat
  faultReport : Bool
  linesCounted : Nat
  misShaped : Bool
  lineBuffers : List LineBuffer
  prep : Option Prep
  columnMap : Option ColumnMap
  deriving DecidableEq, Repr

/-! ### Tracking (02, 03) -/

/-- 02 R21: the state of a patch. -/
inductive PatchState where
  | active | lost | outOfView
  deriving DecidableEq, Repr, Inhabited

/-- 02 R21: a patch record; its id is its place in the set (R22). -/
structure Patch where
  x : Int
  y : Int
  template : List Nat
  state : PatchState
  miss : Nat
  last : Option (Int × Int)
  deriving DecidableEq, Repr, Inhabited

/-- 02 R23: the kinds of patch set a selection is asked for. -/
inductive SetKind where
  | calibration | leading | closure
  deriving DecidableEq, Repr, Inhabited

/-- 02 R23: a selection in progress: its kind, its reference slot and its reads. -/
structure Selection where
  kind : SetKind
  slot : Fin 8
  rd : ReadSet := {}
  deriving DecidableEq, Repr, Inhabited

/-- 03 R43: the confidence class of a consensus. -/
inductive ConfClass where
  | good | weak | none
  deriving DecidableEq, Repr, Inhabited

/-- 03 R41 to R45: a consensus: class, accepted count, inlier count, estimate, MEMORY. -/
structure Consensus where
  cls : ConfClass
  n : Nat
  m : Nat
  est : Option (Int × Int)
  memory : Bool
  deriving DecidableEq, Repr, Inhabited

/-- 03 R44: where the result used comes from. -/
inductive ResultSource where
  | image | blend | predict
  deriving DecidableEq, Repr, Inhabited

/-- 03 R55: the states of the lock detector. -/
inductive LockState where
  | acquiring | locked | coasting | lost
  deriving DecidableEq, Repr, Inhabited

/-- 03 R55: the lock detector. -/
structure Lock where
  state : LockState := .acquiring
  goodRun : Nat := 0
  missRun : Nat := 0
  deriving DecidableEq, Repr, Inhabited

/-- 03 R47: the frame result that TKU hands to SWC. -/
structure FrameResult where
  stored : Nat
  interval : Nat
  cls : ConfClass
  source : ResultSource
  au : Int
  av : Int
  m : Nat
  n : Nat
  memory : Bool
  inView : Nat
  lock : LockState
  su : Int
  sv : Int
  gyroMark : Bool
  closure : Option Consensus
  deriving DecidableEq, Repr, Inhabited

/-- The kinds of key a tracked frame can become (04 R68, R69, R78). -/
inductive KeyKind where
  | normal | forced | bridged | closure
  deriving DecidableEq, Repr, Inhabited

/-- How far a tracking operation has come (02 R40, 03 R47, 04 R66). A stage ending in `Due` waits for the step of the table that carries that name (notes/assumptions/10.md). -/
inductive TrackStage where
  /-- The search is running (02 R30). -/
  | searching
  /-- Stage 3 of R47 has brought these patches (true: closure set) to their third miss; PATCH_LOST takes them in order (02 R38). -/
  | patchesDue (losses : List (Bool × Nat))
  /-- The good run has reached lock_count (03 R56). -/
  | lockedDue
  /-- The miss run has reached coast_limit (03 R56). -/
  | lostDue
  /-- Two qualifying frames of one sign (05 R91). -/
  | calDecisionDue
  /-- The calibration count has reached cal_frames (05 R92). -/
  | calTimeoutDue
  /-- The calibration count has reached 2 cal_frames in RECALIBRATING (05 R93). -/
  | noSweepDue
  /-- A second consecutive closure measurement qualifies, with this width and residual (08 R147). -/
  | closureDue (um vres : Int)
  /-- The key decision waits for a seam job place or a KEY slot (04 R71). -/
  | keyWaiting (kind : KeyKind)
  /-- Key 63 has been taken under the key tests (04 R74). -/
  | keyLimitDue
  /-- The pace candidate run reaches 3 with this frame (05 R96). -/
  | paceDue
  /-- The stall count has reached stall_frames (05 R95). -/
  | stalledDue
  /-- SWC's decision is made; only selections are still to complete (02 R23). -/
  | finished
  deriving DecidableEq, Repr, Inhabited

/-- 02 R40: the tracking operation in progress, from TRACK_START until SWC's decision on the frame completes. `position` is the frame canvas position (U, V) that SWC computes for its decision (04 R64). -/
structure TrackOp where
  slot : Fin 8
  pu : Int
  pv : Int
  cpred : Option (Int × Int)
  radius : Nat
  rd : ReadSet
  stage : TrackStage
  main : Consensus
  closure : Option Consensus
  used : Int × Int
  source : ResultSource
  result : Option FrameResult
  position : Int × Int
  selections : List Selection
  deriving DecidableEq, Repr, Inhabited

/-- The state of the tracking unit (02 R22; 03 R48, R51, R55). -/
structure Tku where
  mainSet : List Patch
  closureSet : List Patch
  gyro : Gyro
  held : Int × Int
  step : Int × Int
  lock : Lock
  op : Option TrackOp
  deriving DecidableEq, Repr

/-! ### Sessions and keys (04, 05) -/

/-- 05 R80: the session states. -/
inductive SessionState where
  | idle | armed | calibrating | recalibrating | sweeping | closing | finishing | done
  deriving DecidableEq, Repr, Inhabited

/-- 05 R98: the end causes. -/
inductive EndCause where
  | userStop | stalled | gap | reversed | limit | keyLimit | closed | closureMissed | noSweep
  | inputFault
  deriving DecidableEq, Repr, Inhabited

/-- 05 R83: the direction field of the configuration. -/
inductive DirectionChoice where
  | auto | left | right
  deriving DecidableEq, Repr, Inhabited

/-- 05 R80: a decided direction (undecided is `none`). -/
inductive Direction where
  | right | left
  deriving DecidableEq, Repr, Inhabited

/-- 05 R83. -/
inductive Extent where
  | partialSweep | fullCircle
  deriving DecidableEq, Repr, Inhabited

/-- 05 R83. -/
inductive CanvasPolicy where
  | wait | overwrite
  deriving DecidableEq, Repr, Inhabited

/-- 05 R80, R83, R84: a full configuration, with the profile values it was armed with (f16 and the offsets, R15). The derived values of R84 are functions of it. -/
structure SessionConfig where
  wf : Nat
  hf : Nat
  profileSlot : Nat
  direction : DirectionChoice
  extent : Extent
  policy : CanvasPolicy
  gyroUse : Bool
  overlapPct : Nat
  radius : Nat
  marginPct : Nat
  lockCount : Nat
  coastLimit : Nat
  calFrames : Nat
  fastFrames : Nat
  slowFrames : Nat
  stallFrames : Nat
  textureMin : Nat
  matchMeanMax : Nat
  distinctMin : Nat
  maxStrips : Nat
  fillY : Nat
  fillC : Nat
  f16 : Nat
  cxOff : Int
  cyOff : Int
  deriving DecidableEq, Repr, Inhabited

/-- 05 R86: a set of tunables with values. -/
structure Tunables where
  overlapPct : Option Nat := none
  radius : Option Nat := none
  lockCount : Option Nat := none
  coastLimit : Option Nat := none
  fastFrames : Option Nat := none
  slowFrames : Option Nat := none
  stallFrames : Option Nat := none
  deriving DecidableEq, Repr, Inhabited

/-- 05 R90: the calibration state: the provisional reference (its slot and its own inlier count), the calibration count, and the sign of a qualifying run of 1 (true: positive). -/
structure Calibration where
  provisional : Option (Fin 8) := none
  inliers : Nat := 0
  count : Nat := 0
  run : Option Bool := none
  deriving DecidableEq, Repr, Inhabited

/-- 05 R96: pace classes. -/
inductive PaceClass where
  | fast | slow | ok
  deriving DecidableEq, Repr, Inhabited

/-- 05 R96: the pace state. -/
structure Pace where
  reported : PaceClass := .ok
  candidate : Option PaceClass := none
  run : Nat := 0
  deriving DecidableEq, Repr, Inhabited

/-- 04 R61: the source of a key. -/
inductive KeySource where
  | image | blend | bridged | tail | closure
  deriving DecidableEq, Repr, Inhabited

/-- 04 R62: the states of a key. -/
inductive KeyState where
  | pinned | seamed | committed | released
  deriving DecidableEq, Repr, Inhabited

/-- 04 R63: the flags of a key. -/
structure KeyFlags where
  forced : Bool := false
  weak : Bool := false
  damaged : Bool := false
  gainLimit : Bool := false
  narrow : Bool := false
  deriving DecidableEq, Repr, Inhabited

/-- 04 R61: a key record. -/
structure KeyRecord where
  index : Nat
  stored : Nat
  slot : Option (Fin 8)
  u : Int
  v : Int
  advance : Int
  source : KeySource
  inliers : Nat
  exposure : Nat
  gain : Option Nat
  seam : Option (List Int)
  state : KeyState
  flags : KeyFlags
  deriving DecidableEq, Repr, Inhabited

/-- 04 R76, R77: the tail-key decision of a session. -/
inductive TailState where
  | notMade | waiting | made
  deriving DecidableEq, Repr, Inhabited

/-- The state of the sweep controller (04 R60, R69, R73; 05 R80). `lastResult` is the frame result of the LAST slot (R76); `arming` the accepted configuration whose map is being built (R85). -/
structure Swc where
  state : SessionState
  id : Nat
  endCause : Option EndCause
  config : Option SessionConfig
  pendingTunables : Option Tunables
  decided : Option Direction
  cal : Calibration
  highWater : Option Int
  stallCount : Nat
  pace : Pace
  closurePending : Bool
  keys : List KeyRecord
  framesPerKey : Nat
  gyroSinceKey : Bool
  lastResult : Option FrameResult
  tail : TailState
  arming : Option SessionConfig
  deriving DecidableEq, Repr

/-! ### Seams and commits (06, 07) -/

/-- 06 R106: a seam job: the ordinary job (k-1 | k), or the closure job (n | V0). -/
inductive SeamJob where
  | ordinary (k : Nat)
  | closure (n : Nat)
  deriving DecidableEq, Repr, Inhabited

/-- 06 R107: the running seam job: its reads, and whether it waits at stage 4 with its results held. -/
structure SeamRun where
  rd : ReadSet := {}
  held : Bool := false
  deriving DecidableEq, Repr, Inhabited

/-- The state of the seam unit (06 R106, R107). -/
structure Smu where
  queue : List SeamJob
  run : Option SeamRun
  deriving DecidableEq, Repr

/-- 07 R122: the kinds of commit. -/
inductive CommitKind where
  | ordinary | final | closure
  deriving DecidableEq, Repr, Inhabited

/-- 07 R122: a commit for a key. -/
structure Commit where
  kind : CommitKind
  key : Nat
  deriving DecidableEq, Repr, Inhabited

/-- 07 R132: the part of a commit that lies in one strip: columns `lo .. hi-1`, whether the strip was created for it (and so is filled first, 10 R168), the fill writes and the pixel writes made so far. -/
structure StripPart where
  strip : Nat
  lo : Int
  hi : Int
  created : Bool
  fills : Nat := 0
  writes : Nat := 0
  deriving DecidableEq, Repr, Inhabited

/-- 07 R123: the running commit: its span, its wrap width (R127), the column it has reached, its reads and its strip part. -/
structure CommitRun where
  spanLo : Int
  spanHi : Int
  wrap : Option Int
  cursor : Int
  rd : ReadSet := {}
  part : Option StripPart := none
  deriving DecidableEq, Repr, Inhabited

/-- 07 R123: the states of BLU. -/
inductive BluState where
  | idle | writing | waiting
  deriving DecidableEq, Repr, Inhabited

/-- The state of the blend unit (07 R122 to R126). `entered` counts the ordinary commits that have entered the queue in the session and `finalEntered` says that the session's final commit has, which in a CLOSED session is the closure commit (R126, R135). -/
structure Blu where
  state : BluState
  queue : List Commit
  run : Option CommitRun
  frontier : Int
  mark : Option Nat
  entered : Nat
  finalEntered : Bool
  deriving DecidableEq, Repr

/-! ### The canvas and strip output (08, 09) -/

/-- 08 R137: where a strip's pixels lie. -/
inductive StripSlot where
  | ring (n : Nat)
  | held (n : Nat)
  deriving DecidableEq, Repr, Inhabited

/-- 08 R139: the states of a strip. -/
inductive StripState where
  | opened | final | sending
  deriving DecidableEq, Repr, Inhabited

/-- 08 R137: a strip record (u_start is 128 index; HELD says that the slot is a held slot). -/
structure Strip where
  index : Nat
  slot : StripSlot
  width : Nat
  state : StripState
  holes : Nat
  damaged : Bool
  wrap : Bool
  last : Bool
  error : Bool
  deriving DecidableEq, Repr, Inhabited

/-- 08 R141: a wait in progress: the strip waited for, the occupant, and the occupant's state when the wait began. -/
structure CanvasWait where
  strip : Nat
  occupant : Nat
  occupantState : StripState
  deriving DecidableEq, Repr, Inhabited

/-- 08 R146: the closure result (absent is `none`). -/
inductive ClosureResult where
  | accepted | missed
  deriving DecidableEq, Repr, Inhabited

/-- The state of the canvas manager (08 R137, R141, R145, R146). `lastCommit` says that the session's last commit has completed (R144). -/
structure Cvm where
  strips : List Strip
  outQueue : List Nat
  wait : Option CanvasWait
  discarded : Nat
  skipped : Nat
  sent : Nat
  damaged : Nat
  closureRun : Nat
  um : Option Int
  vres : Option Int
  closureResult : Option ClosureResult
  lastCommit : Bool
  deriving DecidableEq, Repr

/-- 09 R153: the states of OPU. -/
inductive OpuState where
  | idle | sending | cutting | halted
  deriving DecidableEq, Repr, Inhabited

/-- 09 R153: the transfer record; `holes` and `flags` are the strip record's when the header was built (R154, R160). `trailer` says that the trailer line has begun. -/
structure Transfer where
  strip : Nat
  session : Nat
  line : Nat
  errorSeen : Bool
  holes : Nat
  flags : Beat
  rd : ReadSet := {}
  trailer : Bool := false
  deriving DecidableEq, Repr, Inhabited

/-- The state of the output unit (09 R153). -/
structure Opu where
  state : OpuState
  number : Nat
  xfer : Option Transfer
  deriving DecidableEq, Repr

/-! ### Buffer memory (10) -/

/-- 10 R162: the five requesters, highest priority first. -/
inductive Requester where
  | igu | tku | smu | blu | opu
  deriving DecidableEq, Repr, Inhabited

/-- 10 R162: one access: the requester, the ECC word, and what is written (none: a read). -/
structure Access where
  who : Requester
  addr : Nat
  write : Option WordWrite
  deriving DecidableEq, Repr, Inhabited

/-- The access in progress; `live` is false once the work it served has been abandoned (10 R166, R169). -/
structure Grant where
  access : Access
  live : Bool
  deriving DecidableEq, Repr, Inhabited

/-- 10 R165, R167: the error mark of an ECC word: a flipped bit, or a word that reads as uncorrectable (poisoned words included). -/
inductive WordMark where
  | singleBit | uncorrectable
  deriving DecidableEq, Repr, Inhabited

/-! ### Control link (11) -/

/-- 11 R179: the event flags. -/
structure EventFlags where
  linkError : Bool := false
  requestLost : Bool := false
  noticeLost : Bool := false
  frameDropped : Bool := false
  eccError : Bool := false
  deriving DecidableEq, Repr, Inhabited

/-- 11 R180: the conditions. -/
structure Conditions where
  outputHalted : Bool := false
  profileBad : Bool := false
  burnFailed : Bool := false
  deriving DecidableEq, Repr, Inhabited

/-- 11 R175: the result codes, in the order of their numbers. -/
inductive ResultCode where
  | ok | unknownType | badField | wrongState | busy | queueFull | isProtected | isLocked
  | notStaged | notFound | profileInvalid
  deriving DecidableEq, Repr, Inhabited

/-- 11 R173: a request as the receiver passes it on. -/
structure Request where
  type : Byte
  tag : Byte
  body : List Byte
  deriving DecidableEq, Repr, Inhabited

/-- 11 R178: the status record. -/
structure StatusRecord where
  state : SessionState
  id : Nat
  endCause : Option EndCause
  decided : Option Direction
  stored : Nat
  dropped : Nat
  keyCount : Nat
  lock : LockState
  pace : PaceClass
  slotsInUse : Nat
  frontierStrip : Int
  queueLength : Nat
  output : OpuState
  burning : Bool
  flags : EventFlags
  conds : Conditions
  deriving DecidableEq, Repr, Inhabited

/-- 05 R105: the summary record. -/
structure SummaryRecord where
  id : Nat
  endCause : Option EndCause
  keyCount : Nat
  bridged : Nat
  stored : Nat
  dropped : Nat
  canvasWidth : Int
  sent : Nat
  discarded : Nat
  skipped : Nat
  damaged : Nat
  closureResult : Option ClosureResult
  um : Option Int
  vres : Option Int
  deriving DecidableEq, Repr, Inhabited

/-- 12 R184: a slot of the shadow. -/
structure ShadowSlot where
  valid : Bool
  fields : ProfileFields
  deriving DecidableEq, Repr, Inhabited

/-- 12 R184: the shadow. -/
structure Shadow where
  slots : Vector ShadowSlot 4
  mask : BitVec 4
  locked : Bool
  deriving DecidableEq, Repr

/-- 11 R173, R175: what a reply carries after its type and tag. -/
inductive ReplyBody where
  /-- A result code alone. -/
  | result (code : ResultCode)
  /-- A refusal that names a field by its place (05 R82, 12 R186). -/
  | refusedField (code : ResultCode) (field : Option Nat)
  /-- 11 R172: UNKNOWN_TYPE with the type received. -/
  | unknown (type : Byte)
  | ident
  | status (r : StatusRecord)
  | conditions (c : Conditions)
  /-- 05 R85: session id and configuration in force (with its derived values). -/
  | armed (id : Nat) (cfg : SessionConfig)
  /-- 05 R86: the tunables in force. -/
  | tunables (cfg : SessionConfig)
  /-- 05 R86: the pending set. -/
  | pendingSet (t : Tunables)
  | summary (r : SummaryRecord)
  /-- 04 R79: the record and a window of its seam list. -/
  | key (r : KeyRecord) (entries : List Int)
  /-- 11 R182: the record and its place in the output queue. -/
  | strip (r : Strip) (place : Option Nat)
  | profile (f : ProfileFields) (crcGood : Bool)
  | protection (f : ProtectionFields) (crcGood : Bool)
  /-- 12 R185: the shadow as loaded. -/
  | shadow (sh : Shadow)
  deriving DecidableEq, Repr

/-- 11 R171, R174: a reply in the reply queue. -/
structure Reply where
  type : Byte
  tag : Byte
  body : ReplyBody
  deriving DecidableEq, Repr

/-- 09 R157: the statuses of a STRIP notice. -/
inductive StripStatus where
  | sent | memoryError | discarded | skipped
  deriving DecidableEq, Repr, Inhabited

/-- 12 R189: a burn: its kind, its target and what is to be stored. -/
inductive BurnJob where
  | profile (slot : Fin 4) (fields : ProfileFields)
  | protect (fields : ProtectionFields)
  | lock (fields : ProtectionFields)
  deriving DecidableEq, Repr, Inhabited

/-- 11 section 11.4: the notices, each with the fields its rule lists. -/
inductive NoticeBody where
  /-- 05 R89. -/
  | session (id : Nat) (before after : SessionState) (cause : Option EndCause)
      (decided : Option Direction) (keyCount stored : Nat)
  /-- 04 R73. -/
  | key (id index stored : Nat) (u v up vp advance : Int) (source : KeySource) (flags : KeyFlags)
      (inliers framesPerKey : Nat)
  /-- 03 R58. -/
  | track (id stored : Nat) (before after : LockState) (cls : ConfClass) (m n radius : Nat)
  /-- 05 R96. -/
  | pace (id stored : Nat) (before after : PaceClass) (v : Int)
  /-- 08 R141; `atEnd` is false for the start of a wait and true for its end. -/
  | canvas (id : Nat) (strip occupant : Nat) (occupantState : StripState) (policy : CanvasPolicy)
      (atEnd : Bool)
  /-- 09 R157. -/
  | strip (id index : Nat) (status : StripStatus) (holes : Nat) (damaged : Bool) (number : Nat)
  /-- 08 R148. -/
  | closureAccepted (id stored : Nat) (um vres : Int) (inliers : Nat)
  /-- 08 R150. -/
  | closureMissed (id stored : Nat)
  /-- 12 R189. -/
  | burn (id : Nat) (job : BurnJob) (ok : Bool)
  deriving DecidableEq, Repr, Inhabited

/-- 11 R176: a notice with its sequence number. -/
structure Notice where
  seq : BitVec 8
  body : NoticeBody
  deriving DecidableEq, Repr, Inhabited

/-- 11 R172: the receiver: HUNT, or FRAME with the bytes taken after the start byte. -/
inductive Receiver where
  | hunt
  | frame (bytes : List Byte)
  deriving DecidableEq, Repr, Inhabited

/-- 11 R170, R183: what the part drives on LK_DO: it is undriven; nothing is sent (0x00); the oldest reply, the oldest notice, or a notice that ENGINE.RESET has taken out of its queue is being shifted out, with the bytes still to be shifted. -/
inductive Outbound where
  | undriven
  | nothing
  | reply (bytes : List Byte)
  | notice (bytes : List Byte)
  | lost (bytes : List Byte)
  deriving DecidableEq, Repr, Inhabited

/-- The state of the link unit (11 R172 to R180). `executing` says that the head request is dispatched and holds a reserved reply place (R173, R174). -/
structure Lku where
  requests : List Request
  executing : Bool
  replies : List Reply
  notices : List Notice
  seq : BitVec 8
  flags : EventFlags
  conds : Conditions
  rx : Receiver
  tx : Outbound
  deriving DecidableEq, Repr

/-! ### The profile store (12) -/

/-- 12 R184: a profile record of the store. -/
structure StoredProfile where
  fields : ProfileFields
  crc : BitVec 16
  deriving DecidableEq, Repr, Inhabited

/-- 12 R184: the protection record of the store. -/
structure StoredProtection where
  fields : ProtectionFields
  crc : BitVec 16
  deriving DecidableEq, Repr, Inhabited

/-- The state of the profile store controller (12 R184). -/
structure Psc where
  profiles : Vector StoredProfile 4
  protection : StoredProtection
  shadow : Shadow
  stage : Option ProfileFields
  burn : Option BurnJob
  deriving DecidableEq, Repr

/-- The pins that are not the clocks and data of a line (00 section 4). `sopLine` is the line on the strip output port, in progress while SOP_LV is high, or the last one presented; `sopBeat` is how many of its beats have been presented (09 R155, R156). -/
structure Pins where
  fipFv : Bool
  sopRdy : Bool
  sopFv : Bool
  sopLv : Bool
  sopLine : List Beat
  sopBeat : Nat
  lkSelected : Bool
  deriving DecidableEq, Repr

/-- The part. `mem` is buffer memory as (address, byte) pairs in canonical form, `ecc` the error marks of its words in the same form, `free` the counter that free values are drawn with (notes/assumptions/5.md), `pending` the queue of waiting commands. -/
structure State where
  pins : Pins
  igu : Igu
  tku : Tku
  swc : Swc
  smu : Smu
  blu : Blu
  cvm : Cvm
  opu : Opu
  grant : Option Grant
  mem : List Host.Cell
  ecc : List (Nat × WordMark)
  lku : Lku
  psc : Psc
  free : Nat
  pending : List Instr
  deriving DecidableEq, Repr

/-- Why the machine stops. -/
inductive Fault where
  /-- Raised by MEMORY_ACCESS_COMPLETE for an access at an address that no block addresses: beyond the strip area, or beyond the DRAM (10 R161). Safe: the part's own addresses all lie in the two areas. -/
  | noSuchAddress
  deriving DecidableEq, Repr, Inhabited

/-- Why a command has no meaning. -/
inductive Refusal where
  /-- Raised by exec's arm of a command that has no meaning yet. Safe. No arm raises it. -/
  | notModelled (mnemonic : String)
  deriving DecidableEq, Repr, Inhabited

/-- 01 R14: the ingest unit after pin reset. -/
def Igu.reset : Igu :=
  { slots := Vector.replicate 8 {}, lastCounter := none, nextStored := 0, geoRun := 0,
    dropped := 0, faultReport := false, linesCounted := 0, misShaped := false, lineBuffers := [],
    prep := none, columnMap := none }

/-- 02 R22, 03 R48, R51, R55: the tracking unit after pin reset. -/
def Tku.reset : Tku :=
  { mainSet := [], closureSet := [], gyro := {}, held := (0, 0), step := (0, 0), lock := {},
    op := none }

/-- 04 R60, R69, R73, 05 R80: the sweep controller after pin reset. -/
def Swc.reset : Swc :=
  { state := .idle, id := 0, endCause := none, config := none, pendingTunables := none,
    decided := none, cal := {}, highWater := none, stallCount := 0, pace := {},
    closurePending := false, keys := [], framesPerKey := 0, gyroSinceKey := false,
    lastResult := none, tail := .notMade, arming := none }

/-- 06 R106: the seam unit after pin reset. -/
def Smu.reset : Smu := { queue := [], run := none }

/-- 07 R123, R124, R126: the blend unit after pin reset. -/
def Blu.reset : Blu :=
  { state := .idle, queue := [], run := none, frontier := 0, mark := none, entered := 0,
    finalEntered := false }

/-- 08 R152: the canvas manager after pin reset. -/
def Cvm.reset : Cvm :=
  { strips := [], outQueue := [], wait := none, discarded := 0, skipped := 0, sent := 0,
    damaged := 0, closureRun := 0, um := none, vres := none, closureResult := none,
    lastCommit := false }

/-- 09 R153: the output unit after pin reset. -/
def Opu.reset : Opu := { state := .idle, number := 0, xfer := none }

/-- 11 R172, R176, R177, R183: the link unit after pin reset, before the load of 12 R185. -/
def Lku.reset : Lku :=
  { requests := [], executing := false, replies := [], notices := [], seq := 0#8, flags := {},
    conds := {}, rx := .hunt, tx := .undriven }

/-- DESIGN CHOICE (notes/assumptions/4.md): the profile in every slot of the store as delivered; f16 is that of the spec's worked examples. -/
def deliveredProfile : ProfileFields := { f16 := 25600, cxOff := 0, cyOff := 0, textureMin := 960 }

/-- DESIGN CHOICE (notes/assumptions/4.md): the protection record as delivered. -/
def deliveredProtection : ProtectionFields := { mask := 0#4, locked := false }

/-- 12 R184, R185: the profile store controller after pin reset over the store as delivered; its shadow is the load of R185. -/
def Psc.reset : Psc :=
  { profiles := Vector.replicate 4 { fields := deliveredProfile, crc := profileCrc deliveredProfile },
    protection := { fields := deliveredProtection, crc := protectionCrc deliveredProtection },
    shadow := { slots := Vector.replicate 4 { valid := true, fields := deliveredProfile },
                mask := 0#4, locked := false },
    stage := none, burn := none }

/-- DESIGN CHOICE for the input pins (notes/assumptions/3.md); SOP_FV and SOP_LV are low (09 R153). -/
def Pins.reset : Pins :=
  { fipFv := false, sopRdy := false, sopFv := false, sopLv := false, sopLine := [], sopBeat := 0,
    lkSelected := false }

/-- The part right after reset, with an empty queue of commands. -/
def State.reset : State :=
  { pins := Pins.reset, igu := Igu.reset, tku := Tku.reset, swc := Swc.reset, smu := Smu.reset,
    blu := Blu.reset, cvm := Cvm.reset, opu := Opu.reset, grant := none, mem := [], ecc := [],
    lku := Lku.reset, psc := Psc.reset, free := 0, pending := [] }

end Sys2Proof.Machine
end

