-- ==== Sys2Proof/Machine/Memory.lean ====
section
/-! DEFINITION. Buffer memory (10): the bytes, the error marks of the ECC words, and where the planes of a slot lie. -/
namespace Sys2Proof.Machine

/-- What an unlisted address reads as (10 R169: power-up contents are arbitrary). DESIGN CHOICE 0, notes/assumptions/7.md. -/
def powerUpByte : Byte := 0#8

/-- The byte at an address. -/
def readByte : List Host.Cell → Nat → Byte
  | [], _ => powerUpByte
  | (k, v) :: rest, a => if k = a then v else readByte rest a

/-- Memory with one byte changed; the canonical form is kept. -/
def writeByte : List Host.Cell → Nat → Byte → List Host.Cell
  | [], a, v => if v = powerUpByte then [] else [(a, v)]
  | (k, w) :: rest, a, v =>
    if a < k then (if v = powerUpByte then (k, w) :: rest else (a, v) :: (k, w) :: rest)
    else if a = k then (if v = powerUpByte then rest else (a, v) :: rest)
    else (k, w) :: writeByte rest a v

/-- Keys strictly rise from above `lo`. -/
def keysAbove {β : Type} : Nat → List (Nat × β) → Bool
  | _, [] => true
  | lo, (k, _) :: rest => decide (lo ≤ k) && keysAbove (k + 1) rest

/-- The canonical form of memory: addresses strictly rise, and no entry equals what an unlisted address reads as. -/
def Memory.wf (m : List Host.Cell) : Bool :=
  keysAbove 0 m && m.all (fun c => decide (c.2 ≠ powerUpByte))

/-- The bytes of a word write from address `a` on; a byte that is `none` is left. -/
def writeBytes : List Host.Cell → Nat → List (Option Byte) → List Host.Cell
  | m, _, [] => m
  | m, a, none :: rest => writeBytes m (a + 1) rest
  | m, a, some v :: rest => writeBytes (writeByte m a v) (a + 1) rest

/-- 10 R165: the address of the ECC word that holds a byte. -/
def wordOf (a : Nat) : Nat := a / 8 * 8

/-- The error mark of the ECC word at `w`. -/
def markOf : List (Nat × WordMark) → Nat → Option WordMark
  | [], _ => none
  | (k, v) :: rest, w => if k = w then some v else markOf rest w

/-- The error marks with the mark of one word removed. -/
def clearMark : List (Nat × WordMark) → Nat → List (Nat × WordMark)
  | [], _ => []
  | (k, v) :: rest, w => if k = w then rest else (k, v) :: clearMark rest w

/-- The error marks with the mark of one word set. -/
def setMark : List (Nat × WordMark) → Nat → WordMark → List (Nat × WordMark)
  | [], w, x => [(w, x)]
  | (k, v) :: rest, w, x =>
    if w < k then (w, x) :: (k, v) :: rest
    else if w = k then (w, x) :: rest
    else (k, v) :: setMark rest w x

/-- 10 R165: what a read of a word gives: the worse of what the word's mark says and of what the DRAM gives now. -/
def readOutcome (mark : Option WordMark) (now : EccOutcome) : EccOutcome :=
  match mark, now with
  | some .uncorrectable, _ => .uncorrectable
  | _, .uncorrectable => .uncorrectable
  | some .singleBit, _ => .singleBit
  | none, o => o

/-- 10 R165: the word's mark once it has read with an outcome (a corrected word keeps its flipped bit). DESIGN CHOICE (notes/assumptions/46.md): every uncorrectable outcome lasts, also that of a word without a mark. -/
def markAfterRead (ecc : List (Nat × WordMark)) (w : Nat) : EccOutcome → List (Nat × WordMark)
  | .clean => ecc
  | .singleBit => setMark ecc w .singleBit
  | .uncorrectable => setMark ecc w .uncorrectable

/-! ### Where the planes lie (10 R161; the order inside a slot is a DESIGN CHOICE, notes/assumptions/8.md) -/

/-- First byte of a frame slot. -/
def frameBase (slot : Fin 8) : Nat := slot.val * Config.frameSlotBytes
/-- Raw luma sample (x, y) of a frame slot: rows of 2048. -/
def rawLumaAddr (slot : Fin 8) (x y : Nat) : Nat := frameBase slot + y * 2048 + x
/-- Raw Cb sample: rows of 1024. -/
def rawCbAddr (slot : Fin 8) (x y : Nat) : Nat := frameBase slot + 3145728 + y * 1024 + x
/-- Raw Cr sample: rows of 1024. -/
def rawCrAddr (slot : Fin 8) (x y : Nat) : Nat := frameBase slot + 3932160 + y * 1024 + x
/-- Thumbnail value: rows of 512. -/
def thumbAddr (slot : Fin 8) (x y : Nat) : Nat := frameBase slot + 4718592 + y * 512 + x
/-- The byte that holds the invalid mark of thumbnail pixel (x, y): rows of 64 bytes, bit x mod 8. -/
def thumbMarkAddr (slot : Fin 8) (x y : Nat) : Nat := frameBase slot + 4915200 + y * 64 + x / 8
/-- The high byte of the grid score of cell (i, j): rows of 32 scores of two bytes. -/
def gridAddr (slot : Fin 8) (i j : Nat) : Nat := frameBase slot + 4939776 + (j * 32 + i) * 2

/-- First byte of the strip area. -/
def stripAreaBase : Nat := 8 * Config.frameSlotBytes
/-- First byte beyond the strip area: from here on no block addresses the DRAM (R161). -/
def addressedBytes : Nat := stripAreaBase + (Config.ringSlots + Config.heldSlots) * Config.stripSlotBytes
/-- First byte of a strip slot: ring slots 0..127, then held slots 0..16. -/
def stripBase : StripSlot → Nat
  | .ring n => stripAreaBase + n * Config.stripSlotBytes
  | .held n => stripAreaBase + (Config.ringSlots + n) * Config.stripSlotBytes
/-- Strip luma at strip offset `o`, canvas row `y`: rows of 128. -/
def stripLumaAddr (slot : StripSlot) (o y : Nat) : Nat := stripBase slot + y * 128 + o
/-- Strip Cb at chroma offset `q`, chroma row `p`: rows of 64. -/
def stripCbAddr (slot : StripSlot) (q p : Nat) : Nat := stripBase slot + 196608 + p * 64 + q
/-- Strip Cr at chroma offset `q`, chroma row `p`: rows of 64. -/
def stripCrAddr (slot : StripSlot) (q p : Nat) : Nat := stripBase slot + 245760 + p * 64 + q

/-- The byte at an address as a sample value. -/
def sampleAt (m : List Host.Cell) (a : Nat) : Nat := (readByte m a).toNat

/-- 01 R19: the thumbnail pixel (x, y) of a slot, `none` where it carries the invalid mark. -/
def thumbPixel (m : List Host.Cell) (slot : Fin 8) (x y : Nat) : Option Nat :=
  if (readByte m (thumbMarkAddr slot x y)).getLsbD (x % 8) then none
  else some (sampleAt m (thumbAddr slot x y))

/-- 01 R20: the grid score of cell (i, j) of a slot. -/
def gridScore (m : List Host.Cell) (slot : Fin 8) (i j : Nat) : Nat :=
  sampleAt m (gridAddr slot i j) * 256 + sampleAt m (gridAddr slot i j + 1)

end Sys2Proof.Machine
end

