-- ==== Sys2Proof/Machine/Geometry.lean ====
section
/-! DEFINITION. The geometry of a session: the derived values of a configuration (05 R84, 04 R65), the column map (01 R15, R16), the sampling of warped pixels (01 R17, R18) and the thumbnail and texture grid of a frame (01 R19, R20). -/
namespace Sys2Proof.Machine

/-! ### Derived values -/

/-- 05 R84: thumbnail width Wt. -/
def SessionConfig.wt (c : SessionConfig) : Nat := c.wf / 4
/-- 05 R84: thumbnail height Ht. -/
def SessionConfig.ht (c : SessionConfig) : Nat := c.hf / 4
/-- 05 R84: grid width GW. -/
def SessionConfig.gw (c : SessionConfig) : Nat := c.wt / 16
/-- 05 R84: grid height GH. -/
def SessionConfig.gh (c : SessionConfig) : Nat := c.ht / 16
/-- 05 R84: Mrows. -/
def SessionConfig.mrows (c : SessionConfig) : Nat := 16 * ((c.hf * c.marginPct + 800) / 1600)
/-- 05 R84: canvas height Hc. -/
def SessionConfig.hc (c : SessionConfig) : Nat := c.hf - 2 * c.mrows
/-- 06 R109: cell rows Rc. -/
def SessionConfig.rc (c : SessionConfig) : Nat := c.hc / 8
/-- 04 R65: target advance At, from the overlap_pct in force. -/
def SessionConfig.atAdv (c : SessionConfig) : Int := (16 * (c.wt * (100 - c.overlapPct) / 100) : Nat)
/-- 04 R65: greatest advance Amax. -/
def SessionConfig.amax (c : SessionConfig) : Int := (16 * (c.wt * 80 / 100) : Nat)
/-- 05 R84: expected circumference Uc in px, round(2 pi f16 / 16). -/
def SessionConfig.uc (c : SessionConfig) : Int := roundDiv ((c.f16 : Int) * piNum) (8 * piDen)
/-- 05 R84: held strips H of a FULL_CIRCLE session. -/
def SessionConfig.heldStrips (c : SessionConfig) : Nat := (c.wf + 127) / 128 + 1
/-- 04 R60, R61: V0, the cross position of key 0. -/
def SessionConfig.v0 (c : SessionConfig) : Int := -(16 * (c.mrows : Int))

/-- 04 R64: the canvas column of a position. -/
def placeU (u : Int) : Int := (u + 8) / 16
/-- 04 R64: the canvas row of a position. -/
def placeV (v : Int) : Int := roundDiv v 16

/-! ### The column map -/

/-- 01 R16: the map entries xs(c) and k(c) of warped column `c`. The angle is 8(2c + 1 - Wf) / f16. -/
def mapEntry (wf : Nat) (f16 : Nat) (cx16 : Int) (c : Nat) : Int × Int :=
  let (co, si) := cosSin (8 * (2 * (c : Int) + 1 - wf)) f16
  (roundDiv ((cx16 - 8) * co + f16 * si) co, roundDiv (4096 * trigOne) co)

/-- 01 R15: the column map of a configuration. -/
def buildMap (c : SessionConfig) : ColumnMap :=
  let cx16 : Int := 8 * c.wf + c.cxOff
  let entries := (List.range c.wf).map (mapEntry c.wf c.f16 cx16)
  { cx16 := cx16, cy16 := 8 * c.hf + c.cyOff,
    xs := entries.map Prod.fst, k := entries.map Prod.snd }

/-! ### Warped pixels -/

/-- A sample as a block gets it: its value, `none` when it is not usable, and the ECC words that it needs (01 R17, R18; 10 R166). -/
structure Sample where
  val : Option Nat
  words : List Nat
  deriving DecidableEq, Repr, Inhabited

/-- What a block needs to read a slot through the column map: memory, map, frame size, slot, and the words whose read has failed for the job in hand. -/
structure FrameView where
  mem : List Host.Cell
  map : ColumnMap
  wf : Nat
  hf : Nat
  slot : Fin 8
  failed : List Nat

/-- 01 R16, R17: the source position of warped pixel (c, r), in raw sixteenths. -/
def FrameView.source (v : FrameView) (c r : Int) : Int × Int :=
  let k := v.map.k.getD c.toNat 0
  (v.map.xs.getD c.toNat 0,
    roundDiv ((v.map.cy16 - 8) * 4096 + (16 * r + 8 - 8 * (v.hf : Int)) * k) 4096)

/-- 01 R17: the source position lies inside the raw frame. -/
def FrameView.inside (v : FrameView) (c r : Int) : Bool :=
  let (xs, ys) := v.source c r
  decide (0 ≤ xs ∧ xs ≤ 16 * ((v.wf : Int) - 1) ∧ 0 ≤ ys ∧ ys ≤ 16 * ((v.hf : Int) - 1))

/-- 01 R18: the up to four neighbours of a position with a non-zero weight, as (x, y, weight). -/
def neighbours (xs ys : Int) : List (Nat × Nat × Nat) :=
  let x := (xs / 16).toNat
  let y := (ys / 16).toNat
  let fx := (xs % 16).toNat
  let fy := (ys % 16).toNat
  [(x, y, (16 - fx) * (16 - fy)), (x + 1, y, fx * (16 - fy)), (x, y + 1, (16 - fx) * fy),
    (x + 1, y + 1, fx * fy)].filter (fun n => n.2.2 ≠ 0)

/-- 01 R18: the weighted value of samples, and 01 R17: none when one of their words has failed. -/
def weigh (mem : List Host.Cell) (failed : List Nat) (parts : List (Nat × Nat)) : Sample :=
  let words := parts.map (fun p => wordOf p.1)
  if words.any (fun w => failed.contains w) then { val := none, words := words }
  else
    { val := some ((parts.foldl (fun acc p => acc + sampleAt mem p.1 * p.2) 0 + 128) / 256),
      words := words }

/-- 01 R18: the luma of warped pixel (c, r). -/
def FrameView.luma (v : FrameView) (c r : Int) : Sample :=
  if v.inside c r then
    let (xs, ys) := v.source c r
    weigh v.mem v.failed
      ((neighbours xs ys).map (fun n => (rawLumaAddr v.slot n.1 n.2.1, n.2.2)))
  else { val := none, words := [] }

/-- The two chroma planes. -/
inductive ChromaPlane where
  | cb | cr
  deriving DecidableEq, Repr, Inhabited

/-- The address of a raw chroma sample. -/
def rawChromaAddr : ChromaPlane → Fin 8 → Nat → Nat → Nat
  | .cb => rawCbAddr
  | .cr => rawCrAddr

/-- 01 R18: the warped chroma sample at chroma column `q`, chroma row `p`: its position is that of luma pixel (2q, 2p), and neighbours beyond the last column or row are replaced by it. DESIGN CHOICE (notes/assumptions/41.md): the luma words of (2q, 2p) are not read for the chroma sample: an error that the job has met in one of them makes it INVALID, one that the job has not read does not, and they are not among its words. -/
def FrameView.chroma (v : FrameView) (plane : ChromaPlane) (q p : Int) : Sample :=
  if (v.luma (2 * q) (2 * p)).val.isSome then
    let (xs, ys) := v.source (2 * q) (2 * p)
    weigh v.mem v.failed
      ((neighbours (roundDiv xs 2) (roundDiv ys 2)).map (fun n =>
        (rawChromaAddr plane v.slot (min n.1 (v.wf / 2 - 1)) (min n.2.1 (v.hf / 2 - 1)), n.2.2)))
  else { val := none, words := [] }

/-! ### Thumbnail and texture grid -/

/-- The 16 warped pixels of thumbnail pixel (x, y) (01 R19). -/
def thumbBlock (v : FrameView) (x y : Nat) : List Sample :=
  (List.range 4).flatMap (fun j => (List.range 4).map (fun i =>
    v.luma (4 * x + i : Nat) (4 * y + j : Nat)))

/-- 01 R19: the thumbnail pixel (x, y): none when any of its 16 pixels is INVALID. -/
def thumbValue (v : FrameView) (x y : Nat) : Option Nat :=
  let b := (thumbBlock v x y).map Sample.val
  if b.all Option.isSome then some (((b.map (fun o => o.getD 0)).foldl (· + ·) 0 + 8) / 16) else none

/-- The distance of two sample values. -/
def absDiff (a b : Nat) : Nat := (a - b) + (b - a)

/-- 01 R20: the score of a cell from its 16 x 16 pixels `t x y`. -/
def cellScore (t : Nat → Nat → Option Nat) : Nat :=
  let all := (List.range 16).flatMap (fun y => (List.range 16).map (fun x => (t x y).isSome))
  if all.all (fun ok => ok) then
    let px := fun x y => (t x y).getD 0
    let horizontal := (List.range 16).flatMap (fun y =>
      (List.range 15).map (fun x => absDiff (px (x + 1) y) (px x y)))
    let vertical := (List.range 15).flatMap (fun y =>
      (List.range 16).map (fun x => absDiff (px x (y + 1)) (px x y)))
    min 65535 ((horizontal ++ vertical).foldl (· + ·) 0)
  else 0

/-- 01 R20: the score of grid cell (i, j). -/
def gridValue (v : FrameView) (i j : Nat) : Nat :=
  cellScore (fun x y => thumbValue v (16 * i + x) (16 * j + y))

/-- 10 R169: the raw luma words that a prepare pass reads: those that some warped pixel samples. -/
def prepareReads (v : FrameView) : List Nat :=
  (List.range v.hf).flatMap (fun r : Nat => (List.range v.wf).flatMap (fun c : Nat => (v.luma c r).words))

/-- Eight values as a whole-word write. -/
def wholeWord (addr : Nat) (bytes : List Byte) : WordWrite :=
  { addr := addr, bytes := bytes.map some }

/-- 01 1.5: the writes of a prepare pass: thumbnail values, invalid marks, grid scores, in whole words (10 R167). DESIGN CHOICE (notes/assumptions/40.md): the value byte of an invalid pixel, and what stands past Wt or GW in the last word of a row, the spec leaves open; they are free values. -/
def prepareWrites (v : FrameView) (wt ht : Nat) : List WordWrite :=
  let values := (List.range ht).flatMap (fun y => (List.range (wt / 8)).map (fun w =>
    wholeWord (thumbAddr v.slot (8 * w) y) ((List.range 8).map (fun i =>
      match thumbValue v (8 * w + i) y with
      | some n => BitVec.ofNat 8 n
      | none => Config.openByte (thumbAddr v.slot (8 * w + i) y)))))
  let marks := (List.range ht).flatMap (fun y => (List.range ((wt + 63) / 64)).map (fun w =>
    wholeWord (thumbMarkAddr v.slot (64 * w) y) ((List.range 8).map (fun b =>
      BitVec.ofNat 8 ((List.range 8).foldl (fun acc i =>
        let x := 64 * w + 8 * b + i
        let marked := if x < wt then (thumbValue v x y).isNone
          else (Config.openByte (thumbMarkAddr v.slot x y)).getLsbD i
        if marked then acc + 2 ^ i else acc) 0)))))
  let grid := (List.range (ht / 16)).flatMap (fun j => (List.range ((wt / 16 + 3) / 4)).map (fun w =>
    wholeWord (gridAddr v.slot (4 * w) j) ((List.range 4).flatMap (fun i =>
      if 4 * w + i < wt / 16 then
        [BitVec.ofNat 8 (gridValue v (4 * w + i) j / 256), BitVec.ofNat 8 (gridValue v (4 * w + i) j)]
      else
        [Config.openByte (gridAddr v.slot (4 * w + i) j),
         Config.openByte (gridAddr v.slot (4 * w + i) j + 1)]))))
  values ++ marks ++ grid

end Sys2Proof.Machine
end

