-- ==== Sys2Proof/Machine/Encode.lean ====
section
/-! DEFINITION. The messages that the part sends, byte by byte: the frame of 11 R171 and the body of every reply and notice. Where R171 leaves more than one reading, notes/assumptions/14.md says which one stands here. -/
namespace Sys2Proof.Machine

/-- The start byte of a frame (11 R171). -/
def startByte : Byte := 0xC5#8

/-- 11 R171: a frame of the link. -/
def frameBytes (type tag : Byte) (body : List Byte) : List Byte :=
  let covered := type :: tag :: BitVec.ofNat 8 body.length :: body
  let crc := crc16 covered
  startByte :: covered ++ [crc.extractLsb' 8 8, crc.extractLsb' 0 8]

/-- A group of up to eight flags as one byte, the first listed in bit 0 (11 R171). -/
def flagByte (fs : List Bool) : Byte :=
  BitVec.ofNat 8 (fs.reverse.foldl (fun acc f => 2 * acc + (if f then 1 else 0)) 0)

/-- A field that may be absent (11 R171). -/
def optional {α : Type} (enc : α → List Byte) : Option α → List Byte
  | none => [0#8]
  | some a => 1#8 :: enc a

/-- 11 R175: the number of a result code. -/
def ResultCode.code : ResultCode → Byte
  | .ok => 0#8 | .unknownType => 1#8 | .badField => 2#8 | .wrongState => 3#8 | .busy => 4#8
  | .queueFull => 5#8 | .isProtected => 6#8 | .isLocked => 7#8 | .notStaged => 8#8
  | .notFound => 9#8 | .profileInvalid => 10#8

/-- 05 R80: session states in the order of the record. -/
def SessionState.code : SessionState → Byte
  | .idle => 0#8 | .armed => 1#8 | .calibrating => 2#8 | .recalibrating => 3#8 | .sweeping => 4#8
  | .closing => 5#8 | .finishing => 6#8 | .done => 7#8

/-- 05 R98: end causes in the order of the table. -/
def EndCause.code : EndCause → Byte
  | .userStop => 0#8 | .stalled => 1#8 | .gap => 2#8 | .reversed => 3#8 | .limit => 4#8
  | .keyLimit => 5#8 | .closed => 6#8 | .closureMissed => 7#8 | .noSweep => 8#8 | .inputFault => 9#8

/-- 05 R80: RIGHT, LEFT or undecided. -/
def decidedCode : Option Direction → Byte
  | some .right => 0#8 | some .left => 1#8 | none => 2#8

/-- 03 R55: lock states. -/
def LockState.code : LockState → Byte
  | .acquiring => 0#8 | .locked => 1#8 | .coasting => 2#8 | .lost => 3#8

/-- 11 R178: pace classes in the order of the status record's table (notes/assumptions/14.md: a PACE notice codes them alike). -/
def PaceClass.code : PaceClass → Byte
  | .ok => 0#8 | .fast => 1#8 | .slow => 2#8

/-- 03 R43: confidence classes. -/
def ConfClass.code : ConfClass → Byte
  | .good => 0#8 | .weak => 1#8 | .none => 2#8

/-- 04 R61: key sources. -/
def KeySource.code : KeySource → Byte
  | .image => 0#8 | .blend => 1#8 | .bridged => 2#8 | .tail => 3#8 | .closure => 4#8

/-- 04 R61: key states. -/
def KeyState.code : KeyState → Byte
  | .pinned => 0#8 | .seamed => 1#8 | .committed => 2#8 | .released => 3#8

/-- 04 R61: key flags. -/
def KeyFlags.code (f : KeyFlags) : Byte :=
  flagByte [f.forced, f.weak, f.damaged, f.gainLimit, f.narrow]

/-- 08 R137: strip states. -/
def StripState.code : StripState → Byte
  | .opened => 0#8 | .final => 1#8 | .sending => 2#8

/-- 08 R137: HELD. -/
def Strip.isHeld (s : Strip) : Bool := match s.slot with | .held _ => true | .ring _ => false

/-- 08 R137: u_start. -/
def Strip.uStart (s : Strip) : Nat := 128 * s.index

/-- 11 R182: slot with its kind (ring 0, held 1). -/
def StripSlot.code : StripSlot → List Byte
  | .ring n => [0#8, BitVec.ofNat 8 n]
  | .held n => [1#8, BitVec.ofNat 8 n]

/-- 05 R83: canvas policies. -/
def CanvasPolicy.code : CanvasPolicy → Byte
  | .wait => 0#8 | .overwrite => 1#8

/-- 05 R83: directions of the configuration. -/
def DirectionChoice.code : DirectionChoice → Byte
  | .auto => 0#8 | .left => 1#8 | .right => 2#8

/-- 05 R83: extents. -/
def Extent.code : Extent → Byte
  | .partialSweep => 0#8 | .fullCircle => 1#8

/-- 11 R178: the output state; CUTTING is reported as SENDING (09 R153). -/
def OpuState.code : OpuState → Byte
  | .idle => 0#8 | .sending => 1#8 | .cutting => 1#8 | .halted => 2#8

/-- 09 R157: strip statuses. -/
def StripStatus.code : StripStatus → Byte
  | .sent => 0#8 | .memoryError => 1#8 | .discarded => 2#8 | .skipped => 3#8

/-- 11 R179: the event flags. -/
def EventFlags.code (f : EventFlags) : Byte :=
  flagByte [f.linkError, f.requestLost, f.noticeLost, f.frameDropped, f.eccError]

/-- 11 R180: the conditions. -/
def Conditions.code (c : Conditions) : Byte := flagByte [c.outputHalted, c.profileBad, c.burnFailed]

/-- The tunables of a configuration, in the order of 05 R86. -/
def tunableBytes (c : SessionConfig) : List Byte :=
  field 1 c.overlapPct ++ field 1 c.radius ++ field 1 c.lockCount ++ field 1 c.coastLimit
    ++ field 1 c.fastFrames ++ field 1 c.slowFrames ++ field 2 c.stallFrames

/-- The pending set as a set of items (11 R171). -/
def pendingSetBytes (t : Tunables) : List Byte :=
  let items : List (List Byte) :=
    [t.overlapPct.map (fun v : Nat => 0#8 :: field 1 v), t.radius.map (fun v : Nat => 1#8 :: field 1 v),
     t.lockCount.map (fun v : Nat => 2#8 :: field 1 v), t.coastLimit.map (fun v : Nat => 3#8 :: field 1 v),
     t.fastFrames.map (fun v : Nat => 4#8 :: field 1 v), t.slowFrames.map (fun v : Nat => 5#8 :: field 1 v),
     t.stallFrames.map (fun v : Nat => 6#8 :: field 2 v)].filterMap (fun o => o)
  BitVec.ofNat 8 items.length :: items.flatten

/-- 05 R85: every configuration field, then the derived values of R84. -/
def armedBytes (c : SessionConfig) : List Byte :=
  field 2 c.wf ++ field 2 c.hf ++ field 1 c.profileSlot ++ [c.direction.code, c.extent.code, c.policy.code]
    ++ [if c.gyroUse then 1#8 else 0#8] ++ field 1 c.overlapPct ++ field 1 c.radius ++ field 1 c.marginPct
    ++ field 1 c.lockCount ++ field 1 c.coastLimit ++ field 1 c.calFrames ++ field 1 c.fastFrames
    ++ field 1 c.slowFrames ++ field 2 c.stallFrames ++ field 2 c.textureMin ++ field 1 c.matchMeanMax
    ++ field 2 c.distinctMin ++ field 2 c.maxStrips ++ field 1 c.fillY ++ field 1 c.fillC
    ++ field 4 c.wt ++ field 4 c.ht ++ field 1 c.gw ++ field 1 c.gh ++ field 4 c.mrows ++ field 4 c.hc
    ++ field 4 c.atAdv ++ field 4 c.amax
    ++ (if c.extent = .fullCircle then 1#8 :: field 4 c.uc ++ 1#8 :: field 1 c.heldStrips else [0#8, 0#8])

/-- 11 R178: the status record. -/
def StatusRecord.bytes (r : StatusRecord) : List Byte :=
  r.state.code :: field 2 r.id ++ optional (fun c : EndCause => [c.code]) r.endCause
    ++ [decidedCode r.decided] ++ field 4 r.stored ++ field 2 r.dropped ++ field 1 r.keyCount
    ++ [r.lock.code, r.pace.code] ++ field 1 r.slotsInUse ++ field 4 r.frontierStrip
    ++ field 1 r.queueLength ++ [r.output.code, if r.burning then 1#8 else 0#8]
    ++ [r.flags.code, r.conds.code]

/-- 05 R105: the summary record. -/
def SummaryRecord.bytes (r : SummaryRecord) : List Byte :=
  field 2 r.id ++ [(r.endCause.getD .userStop).code] ++ field 1 r.keyCount ++ field 4 r.bridged
    ++ field 4 r.stored ++ field 2 r.dropped ++ field 4 r.canvasWidth ++ field 2 r.sent
    ++ field 2 r.discarded ++ field 2 r.skipped ++ field 2 r.damaged
    ++ (match r.closureResult with
      | none => [0#8]
      | some .accepted => [1#8, 0#8] ++ field 4 (r.um.getD 0) ++ field 4 (r.vres.getD 0)
      | some .missed => [1#8, 1#8])

/-- 04 R79: a key record and a window of its seam list. -/
def keyBytes (r : KeyRecord) (entries : List Int) : List Byte :=
  field 1 r.index ++ field 4 r.stored ++ optional (fun s : Fin 8 => [BitVec.ofNat 8 s.val]) r.slot
    ++ field 4 r.u ++ field 4 r.v ++ field 4 r.advance ++ [r.source.code] ++ field 1 r.inliers
    ++ field 2 r.exposure ++ optional (fun g : Nat => field 2 g) r.gain
    ++ [if r.seam.isSome then 1#8 else 0#8] ++ [r.state.code, r.flags.code]
    ++ BitVec.ofNat 8 entries.length :: entries.flatMap (field 3)

/-- 11 R182: a strip record and its place in the output queue, whose range no rule states (R171: four bytes). -/
def stripBytes (r : Strip) (place : Option Nat) : List Byte :=
  field 2 r.index ++ r.slot.code ++ field 3 r.uStart ++ field 1 r.width ++ [r.state.code]
    ++ field 2 r.holes ++ [flagByte [r.isHeld, r.damaged, r.wrap, r.last], flagByte [r.error]]
    ++ optional (fun n : Nat => field 4 n) place

/-- 12 R190: the fields of a profile record. -/
def profileBytes (f : ProfileFields) : List Byte :=
  field 3 f.f16 ++ field 2 f.cxOff ++ field 2 f.cyOff ++ field 2 f.textureMin

/-- 11 R181: the values of IDENT.GET in the order of the table. -/
def identValues : List Int := [0x46A7, 0x5324, 1, 1, 2048, 1536, 8, 64, 128, 17, 4, 8, 9, 16]

/-- 11 R175: the body of a reply: the result code, then the content of its rule. -/
def ReplyBody.bytes : ReplyBody → List Byte
  | .result c => [c.code]
  | .refusedField c f => c.code :: (match f with | some n => [BitVec.ofNat 8 n] | none => [])
  | .unknown t => [ResultCode.unknownType.code, t]
  | .ident => 0#8 :: identValues.flatMap (field 4)
  | .status r => 0#8 :: r.bytes
  | .conditions c => [0#8, c.code]
  | .armed id c => 0#8 :: field 2 id ++ armedBytes c
  | .tunables c => 0#8 :: tunableBytes c
  | .pendingSet t => 0#8 :: pendingSetBytes t
  | .summary r => 0#8 :: r.bytes
  | .key r entries => 0#8 :: keyBytes r entries
  | .strip r place => 0#8 :: stripBytes r place
  | .profile f good => 0#8 :: profileBytes f ++ [if good then 0#8 else 1#8]
  | .protection f good =>
    [0#8, f.mask.setWidth 8, if f.locked then 1#8 else 0#8, if good then 0#8 else 1#8]
  | .shadow sh =>
    [0#8, flagByte (sh.slots.toList.map ShadowSlot.valid), sh.mask.setWidth 8,
      if sh.locked then 1#8 else 0#8]

/-- The frame of a reply. -/
def Reply.bytes (r : Reply) : List Byte := frameBytes r.type r.tag r.body.bytes

/-- 11 section 11.4: the type of a notice. -/
def NoticeBody.type : NoticeBody → Byte
  | .session .. => 0x40#8
  | .key .. => 0x41#8
  | .track .. => 0x42#8
  | .pace .. => 0x43#8
  | .canvas .. => 0x44#8
  | .strip .. => 0x45#8
  | .closureAccepted .. => 0x46#8
  | .closureMissed .. => 0x46#8
  | .burn .. => 0x47#8

/-- 12 R189: kind and target of a burn. -/
def BurnJob.bytes : BurnJob → List Byte
  | .profile s _ => [0#8, BitVec.ofNat 8 s.val]
  | .protect _ => [1#8, 4#8]
  | .lock _ => [2#8, 4#8]

/-- The body of a notice: the fields that its rule lists. -/
def NoticeBody.bytes : NoticeBody → List Byte
  | .session id before after cause decided keyCount stored =>
    field 2 id ++ [before.code, after.code] ++ optional (fun c : EndCause => [c.code]) cause
      ++ [decidedCode decided] ++ field 1 keyCount ++ field 4 stored
  | .key id index stored u v up vp advance source flags inliers framesPerKey =>
    field 2 id ++ field 1 index ++ field 4 stored ++ field 4 u ++ field 4 v ++ field 3 up ++ field 4 vp
      ++ field 4 advance ++ [source.code, flags.code] ++ field 1 inliers ++ field 2 framesPerKey
  | .track id stored before after cls m n radius =>
    field 2 id ++ field 4 stored ++ [before.code, after.code, cls.code] ++ field 1 m ++ field 1 n
      ++ field 1 radius
  | .pace id stored before after v =>
    field 2 id ++ field 4 stored ++ [before.code, after.code] ++ field 4 v
  | .canvas id j occupant occupantState policy atEnd =>
    field 2 id ++ field 2 j ++ field 2 occupant ++ [occupantState.code, policy.code]
      ++ [if atEnd then 1#8 else 0#8]
  | .strip id index status holes damaged number =>
    field 2 id ++ field 2 index ++ [status.code] ++ field 2 holes ++ [flagByte [damaged]]
      ++ field 2 number
  | .closureAccepted id stored um vres inliers =>
    field 2 id ++ field 4 stored ++ [0#8] ++ field 4 um ++ field 4 vres ++ field 1 inliers
  | .closureMissed id stored => field 2 id ++ field 4 stored ++ [1#8]
  | .burn id job ok => field 2 id ++ job.bytes ++ [if ok then 0#8 else 1#8]

/-- The frame of a notice; its tag is the sequence number (11 R171, R176). -/
def Notice.bytes (n : Notice) : List Byte := frameBytes n.body.type n.seq n.body.bytes

/-- The types of the requests (11 section 11.4). -/
def requestTypes : List Byte :=
  [0x01#8, 0x02#8, 0x03#8, 0x10#8, 0x11#8, 0x12#8, 0x13#8, 0x14#8, 0x15#8, 0x16#8, 0x18#8, 0x19#8,
   0x20#8, 0x21#8, 0x30#8, 0x31#8, 0x32#8, 0x33#8, 0x34#8, 0x35#8, 0x3F#8]

/-- 11 R172, R174: the type of a reply to a request of the given type: plus 0x80, or 0x80 for a type that is not a request. -/
def replyType (t : Byte) : Byte := if requestTypes.contains t then t + 0x80#8 else 0x80#8

end Sys2Proof.Machine
end

