-- ==== Sys2Proof/Machine/Flags.lean ====
section
/-! DEFINITION. The event flags and conditions of the link unit and the operations that set them (11 R179, R180), and the queueing of notices and replies (11 R173, R174, R176). -/
namespace Sys2Proof.Machine

/-- 11 R179: LINK_ERROR is set. -/
def State.noteLinkError (s : State) : State := { s with lku.flags.linkError := true }
/-- 11 R179: REQUEST_LOST is set. -/
def State.noteRequestLost (s : State) : State := { s with lku.flags.requestLost := true }
/-- 11 R179: NOTICE_LOST is set. -/
def State.noteNoticeLost (s : State) : State := { s with lku.flags.noticeLost := true }
/-- 11 R179: FRAME_DROPPED is set. -/
def State.noteFrameDropped (s : State) : State := { s with lku.flags.frameDropped := true }
/-- 11 R179: ECC_ERROR is set. -/
def State.noteEccError (s : State) : State := { s with lku.flags.eccError := true }
/-- 11 R179: the flags that a status record reports are cleared. -/
def State.clearEventFlags (s : State) : State := { s with lku.flags := {} }

/-- 11 R180: OUTPUT_HALTED set or cleared. -/
def State.setOutputHalted (s : State) (b : Bool) : State := { s with lku.conds.outputHalted := b }
/-- 11 R180: PROFILE_BAD set or cleared. -/
def State.setProfileBad (s : State) (b : Bool) : State := { s with lku.conds.profileBad := b }
/-- 11 R180: BURN_FAILED set or cleared. -/
def State.setBurnFailed (s : State) (b : Bool) : State := { s with lku.conds.burnFailed := b }

/-- 11 R176: a notice takes the next sequence number; it joins the queue, or is dropped with NOTICE_LOST when the queue holds 16. -/
def State.notify (s : State) (body : NoticeBody) : State :=
  if s.lku.notices.length < Config.noticePlaces then
    { s with lku.notices := s.lku.notices ++ [{ seq := s.lku.seq, body := body }]
             lku.seq := s.lku.seq + 1#8 }
  else { s with lku.seq := s.lku.seq + 1#8, lku.flags.noticeLost := true }

/-- 11 R174: places of the reply queue taken by replies and by the reservation. -/
def Lku.placesTaken (l : Lku) : Nat := l.replies.length + (if l.executing then 1 else 0)

/-- 11 R173: the head request leaves its queue and its reply takes the reserved place. -/
def State.answer (s : State) (body : ReplyBody) : State :=
  match s.lku.requests with
  | [] => s
  | r :: rest =>
    { s with lku.replies := s.lku.replies ++ [{ type := replyType r.type, tag := r.tag, body := body }]
             lku.requests := rest
             lku.executing := false }

/-- 11 R177: ATTN is high while a reply or a notice waits in its queue. -/
def State.attn (s : State) : Bool := !s.lku.replies.isEmpty || !s.lku.notices.isEmpty

end Sys2Proof.Machine
end

