-- ==== Sys2Proof/Machine/Ops.lean ====
section
/-! DEFINITION. Named operations over the state that several commands share: the configuration and direction in force, frame slots, the gyro accumulator, frames ended without acceptance, strip records, SESSION notices, the end of a sweep. -/
namespace Sys2Proof.Machine

/-! ### Configuration, direction, session -/

/-- 05 R80: the configuration in force. -/
def State.cfg (s : State) : SessionConfig := s.swc.config.getD default

/-- 00 5.2: a LEFT sweep. -/
def State.left (s : State) : Bool := decide (s.swc.decided = some .left)

/-- 00 5.2, 05 R80: the direction sign s. -/
def State.sgn (s : State) : Int := if s.left then -1 else 1

/-- 01 1.2: the storing states. -/
def SessionState.storing : SessionState → Bool
  | .calibrating | .recalibrating | .sweeping | .closing => true
  | .idle | .armed | .finishing | .done => false

/-- The session is in a storing state. -/
def State.storing (s : State) : Bool := s.swc.state.storing

/-- 05 R89: the SESSION notice of a change from `before` to `after`. -/
def State.notifySession (s : State) (before after : SessionState) : State :=
  s.notify (.session s.swc.id before after
    (if after = .finishing ∨ after = .done then s.swc.endCause else none)
    s.swc.decided s.swc.keys.length s.igu.nextStored)

/-- 05 R89: the session state changes and a SESSION notice is queued. -/
def State.enterState (s : State) (after : SessionState) : State :=
  { s with swc.state := after }.notifySession s.swc.state after

/-! ### Frame slots -/

/-- A slot's state. -/
def State.slotState (s : State) (i : Fin 8) : SlotState := s.igu.slots[i].state

/-- A slot moves to a state and keeps its record. -/
def State.setSlotState (s : State) (i : Fin 8) (st : SlotState) : State :=
  { s with igu.slots := s.igu.slots.set i { s.igu.slots[i] with state := st } }

/-- 01 R3: a slot becomes FREE and its record is removed with it. -/
def State.freeSlot (s : State) (i : Fin 8) : State :=
  { s with igu.slots := s.igu.slots.set i {} }

/-- A slot is filled with a state and a record. -/
def State.putSlot (s : State) (i : Fin 8) (st : SlotState) (r : FrameRecord) : State :=
  { s with igu.slots := s.igu.slots.set i { state := st, record := some r } }

/-- The slots in a state, lowest number first. -/
def State.slotsIn (s : State) (st : SlotState) : List (Fin 8) :=
  (List.finRange 8).filter (fun i => decide (s.slotState i = st))

/-- The lowest-numbered slot in a state. -/
def State.firstIn (s : State) (st : SlotState) : Option (Fin 8) := (s.slotsIn st).head?

/-- The stored frame number of a slot. -/
def State.storedOf (s : State) (i : Fin 8) : Nat :=
  ((s.igu.slots[i].record).bind FrameRecord.stored).getD 0

/-- 01 R11: of the slots in a state, the one with the lowest stored frame number. -/
def State.oldestIn (s : State) (st : SlotState) : Option (Fin 8) :=
  (s.slotsIn st).foldl (fun best i => match best with
    | none => some i
    | some b => if s.storedOf i < s.storedOf b then some i else some b) none

/-- Free every slot of a list. -/
def State.freeSlots (s : State) (l : List (Fin 8)) : State := l.foldl State.freeSlot s

/-- 01 R12: a slot becomes LAST; any other LAST slot becomes FREE. -/
def State.moveToLast (s : State) (i : Fin 8) : State :=
  (s.freeSlots ((s.slotsIn .last).filter (· ≠ i))).setSlotState i .last

/-- 01 R12: a slot becomes KEY; any other LAST slot becomes FREE. -/
def State.moveToKey (s : State) (i : Fin 8) : State :=
  (s.freeSlots ((s.slotsIn .last).filter (· ≠ i))).setSlotState i .key

/-- 01 R10: slots not FREE. -/
def State.slotsInUse (s : State) : Nat :=
  ((List.finRange 8).filter (fun i => decide (s.slotState i ≠ .free))).length

/-! ### The gyro accumulator (03 R48, R49) -/

/-- 03 R48: a sum clamped. -/
def clampSum (x : Int) : Int := clampInt (-Config.gyroSumTop) Config.gyroSumTop x

/-- 03 R48: the increments of a GYRO.PUT added. -/
def Gyro.put (g : Gyro) (yaw pitch : Int) : Gyro :=
  { yaw := clampSum (g.yaw + clampInt (-Config.gyroIncrementTop) Config.gyroIncrementTop yaw)
    pitch := clampSum (g.pitch + clampInt (-Config.gyroIncrementTop) Config.gyroIncrementTop pitch)
    received := true }

/-- 03 R49: a snapshot handed back. -/
def Gyro.handBack (g snap : Gyro) : Gyro :=
  { yaw := clampSum (g.yaw + snap.yaw), pitch := clampSum (g.pitch + snap.pitch)
    received := g.received || snap.received }

/-! ### Frames ended without acceptance -/

/-- 10 R163: the line writes still waiting for a slot are withdrawn; a write of it already granted completes for no one. -/
def State.withdrawLines (s : State) (i : Fin 8) : State :=
  { s with
    grant := match s.grant, s.igu.lineBuffers with
      | some g, b :: _ =>
        if b.slot = i ∧ g.access.who = .igu ∧ g.access.write.isSome ∧ g.access.write = b.writes.head?
        then some { g with live := false } else some g
      | g, _ => g
    igu.lineBuffers := s.igu.lineBuffers.filter (fun b => decide (b.slot ≠ i)) }

/-- 01 R6, R7, 03 R49: the frame FILLING a slot is ended without acceptance: the slot becomes FREE and its snapshot is handed back. -/
def State.endUnaccepted (s : State) (i : Fin 8) : State :=
  let snap := match s.igu.slots[i].record with
    | some r => r.snapshot
    | none => {}
  { (s.withdrawLines i).freeSlot i with tku.gyro := s.tku.gyro.handBack snap }

/-- 01 R8: a frame dropped with cause RING_FULL or ABORTED is counted and flagged. -/
def State.countDropped (s : State) : State :=
  { s with igu.dropped := addHold Config.countTop s.igu.dropped 1 }.noteFrameDropped

/-- 01 R9: a GEOMETRY reject counts in the run; when the run reaches 8, IGU reports INPUT_FAULT. The run stays at 8. -/
def State.countGeometry (s : State) : State :=
  if s.igu.geoRun < 8 then
    { s with igu.geoRun := s.igu.geoRun + 1
             igu.faultReport := s.igu.faultReport || decide (s.igu.geoRun + 1 = 8) }
  else s

/-! ### The end of a sweep (05 R98, R99) -/

/-- 01 R13: what IGU discards when the storing states end: the FILLING and FILLED-WAIT slots with the line writes that still wait for them (notes/assumptions/13.md), and the QUEUED slots. -/
def State.discardFrames (s : State) : State :=
  let unwritten := s.slotsIn .filling ++ s.slotsIn .filledWait
  let s := unwritten.foldl (fun t i => (t.withdrawLines i).freeSlot i) s
  s.freeSlots (s.slotsIn .queued)

/-- 05 R99, 02 R23: a provisional reference that is still TRACKING while its selection runs keeps its slot until it completes; any other is freed (notes/assumptions/9.md). -/
def State.freeReference (s : State) (i : Fin 8) : State :=
  if s.slotState i = .tracking then s else s.freeSlot i

/-- 05 R99: without key 0 the session has no provisional reference any more and its slot is freed. -/
def State.dropProvisional (s : State) : State :=
  match s.swc.keys, s.swc.cal.provisional with
  | [], some i => { s.freeReference i with swc.cal.provisional := none }
  | _, _ => s

/-- 05 R98, R99: an end cause raised in a storing state is recorded and the session enters FINISHING; raised elsewhere it has no effect. -/
def State.endSweep (s : State) (cause : EndCause) : State :=
  if s.storing then
    ({ s with swc.endCause := some cause }.enterState .finishing).discardFrames.dropProvisional
  else s

/-- 05 R100: all the work of FINISHING is done. -/
def State.workDone (s : State) : Bool :=
  s.tku.op.isNone && s.igu.prep.isNone && s.cvm.outQueue.isEmpty
    && (s.swc.keys.isEmpty
      || (s.blu.mark.isSome && s.cvm.lastCommit && s.smu.queue.isEmpty && s.blu.queue.isEmpty))

/-- 04 R76: the end causes that call for the tail-key decision. -/
def EndCause.callsForTail : EndCause → Bool
  | .userStop | .stalled | .closureMissed => true
  | .gap | .reversed | .limit | .keyLimit | .closed | .noSweep | .inputFault => false

/-- 04 R76: the end cause of the session calls for the tail-key decision. -/
def State.tailCalled (s : State) : Bool := (s.swc.endCause.map EndCause.callsForTail).getD false

/-- 04 R76: the tail-key decision that gives no tail key: the LAST slot becomes FREE. -/
def State.dropLast (s : State) : State :=
  { s.freeSlots (s.slotsIn .last) with swc.tail := .made }

/-- 05 R100: FINISHING becomes DONE once its work is done; a session with no key makes its tail-key decision, which can give no key, on the way (04 R76). -/
def State.checkDone (s : State) : State :=
  if s.swc.state = .finishing ∧ s.workDone then
    (if s.swc.keys.isEmpty && s.tailCalled then s.dropLast else s).enterState .done
  else s

/-! ### Keys and strips -/

/-- A key record. -/
def State.keyAt (s : State) (k : Nat) : Option KeyRecord := s.swc.keys[k]?

/-- A key record changed. -/
def State.updateKey (s : State) (k : Nat) (f : KeyRecord → KeyRecord) : State :=
  { s with swc.keys := s.swc.keys.modify k f }

/-- 04 R62, 01 R12: a key becomes RELEASED: its slot becomes FREE and the record's slot field absent. -/
def State.releaseKey (s : State) (k : Nat) : State :=
  let t := s.updateKey k (fun r => { r with state := .released, slot := none })
  match (s.keyAt k).bind KeyRecord.slot with
  | some i => t.freeSlot i
  | none => t

/-- 08 R137: the record of strip j. -/
def State.stripAt (s : State) (j : Nat) : Option Strip := s.cvm.strips.find? (fun r => r.index == j)

/-- The record of strip j changed. -/
def State.updateStrip (s : State) (j : Nat) (f : Strip → Strip) : State :=
  { s with cvm.strips := s.cvm.strips.map (fun r => if r.index = j then f r else r) }

/-- 08 R137, R139: strip j leaves the table and the output queue; a strip that carries DAMAGED is counted. -/
def State.removeStrip (s : State) (j : Nat) : State :=
  { s with
    cvm.damaged := (match s.stripAt j with
      | some r => if r.damaged then addHold Config.countTop s.cvm.damaged 1 else s.cvm.damaged
      | none => s.cvm.damaged)
    cvm.strips := s.cvm.strips.filter (fun r => decide (r.index ≠ j))
    cvm.outQueue := s.cvm.outQueue.filter (fun k => decide (k ≠ j)) }

/-- 09 R157: a strip sent whole is counted (08 R137). -/
def State.countSent (s : State) : State := { s with cvm.sent := addHold Config.countTop s.cvm.sent 1 }
/-- 09 R159: a strip skipped is counted (08 R137). -/
def State.countSkipped (s : State) : State :=
  { s with cvm.skipped := addHold Config.countTop s.cvm.skipped 1 }
/-- 08 R142: a strip discarded is counted (08 R137). -/
def State.countDiscarded (s : State) : State :=
  { s with cvm.discarded := addHold Config.countTop s.cvm.discarded 1 }

/-- 09 R153: OPU takes a state. -/
def State.setOpuState (s : State) (st : OpuState) : State := { s with opu.state := st }
/-- 09 R153: the transfer number returns to 0 and the transfer record is emptied. -/
def State.clearTransfer (s : State) : State := { s with opu.number := 0, opu.xfer := none }

end Sys2Proof.Machine
end

