-- ==== Sys2Proof/Machine/SeamMath.lean ====
section
/-! DEFINITION. The arithmetic of seams (06 R108 to R116) and of the feather (07 R129, R130), as functions of pixels. -/
namespace Sys2Proof.Machine

/-- A key as SMU and BLU read it: its slot through the column map, its pixel placement, the sweep direction, its gain (06 R108). -/
structure KeyView where
  view : FrameView
  up : Int
  vp : Int
  left : Bool
  gain : Nat

/-- 06 R108: the warped column and row of canvas pixel (u, y), when it is in frame for the key. -/
def KeyView.warped (k : KeyView) (u y : Int) : Option (Int × Int) :=
  let c' := u - k.up
  let r := y - k.vp
  if 0 ≤ c' ∧ c' < k.view.wf ∧ 0 ≤ r ∧ r < k.view.hf then
    some (if k.left then (k.view.wf : Int) - 1 - c' else c', r)
  else none

/-- 06 R108: the luma of canvas pixel (u, y) as sampled; not usable out of frame. -/
def KeyView.luma (k : KeyView) (u y : Int) : Sample :=
  match k.warped u y with
  | some (c, r) => k.view.luma c r
  | none => { val := none, words := [] }

/-- 06 R111: the gained luma of a value. -/
def gained (gain y : Nat) : Nat := min 255 ((y * gain + 128) / 256)

/-- 06 R111: the gained luma of canvas pixel (u, y). -/
def KeyView.gainedLuma (k : KeyView) (u y : Int) : Sample :=
  let s := k.luma u y
  { s with val := s.val.map (gained k.gain) }

/-- 07 R128: the chroma sample of the key for the luma pixel (u, y). Chroma is not gained. -/
def KeyView.chroma (k : KeyView) (plane : ChromaPlane) (u y : Int) : Sample :=
  match k.warped u y with
  | some (c, r) => k.view.chroma plane (c / 2) (r / 2)
  | none => { val := none, words := [] }

/-- A plane of canvas pixels as one side sees it. -/
abbrev Pixels := Int → Int → Sample

/-- The 64 positions of the 8 x 8 cell whose first column and row are `x`, `y`. -/
def cellPositions (x y : Int) : List (Int × Int) :=
  (spanInts y (y + 8)).flatMap (fun r => (spanInts x (x + 8)).map (fun c => (c, r)))

/-! ### Exposure gain (06 R109, R110) -/

/-- The first columns and rows of the gain cells of an overlap. -/
def gainCells (ol orr : Int) (rc : Nat) : List (Int × Int) :=
  (List.range rc).flatMap (fun j : Nat => (List.range ((orr - ol) / 8).toNat).map (fun i : Nat =>
    (ol + 8 * (i : Int), 8 * (j : Int))))

/-- The sum of a cell's 64 values when all of them are usable. -/
def cellSum (p : Pixels) (cell : Int × Int) : Option Nat :=
  let vals := (cellPositions cell.1 cell.2).map (fun q => (p q.1 q.2).val)
  if vals.all Option.isSome then some ((vals.map (fun o => o.getD 0)).foldl (· + ·) 0) else none

/-- 06 R109: N, SY of the left key and SY of the right key. -/
def gainSums (l r : Pixels) (ol orr : Int) (rc : Nat) : Nat × Nat × Nat :=
  (gainCells ol orr rc).foldl (fun acc cell =>
    match cellSum l cell, cellSum r cell with
    | some a, some b => (acc.1 + 1, acc.2.1 + a, acc.2.2 + b)
    | _, _ => acc) (0, 0, 0)

/-- 06 R110: the unclamped gain of the right key. -/
def unclampedGain (sums : Nat × Nat × Nat) (gLeft eLeft eRight : Nat) : Int :=
  let (n, syl, syr) := sums
  if 16 ≤ n ∧ 0 < syr then roundDiv ((gLeft : Int) * syl) syr
  else if eLeft ≠ 0 ∧ eRight ≠ 0 then roundDiv ((gLeft : Int) * eLeft) eRight
  else gLeft

/-- 06 R110: the clamped gain, and whether the clamp changed it. -/
def clampedGain (g : Int) : Nat × Bool :=
  ((clampInt 128 512 g).toNat, decide (clampInt 128 512 g ≠ g))

/-! ### Region (06 R112) -/

/-- 06 R112: an overlap [ol, orr) with the left bound b. -/
structure Region where
  ol : Int
  orr : Int
  b : Int
  deriving DecidableEq, Repr, Inhabited

/-- 06 R112: the left bound, raised past the seam before. -/
def regionOf (ol orr : Int) (before : Option (List Int)) : Region :=
  { ol := ol, orr := orr,
    b := match before with
      | some (p :: ps) => max ol (greatestInt 0 (p :: ps) + 16)
      | _ => ol }

/-- 06 R112: the first column L of the region. -/
def Region.left (g : Region) : Int := g.b + 8

/-- 06 R112: the cell columns Qc. -/
def Region.qc (g : Region) : Nat := ((g.orr - 8 - g.left) / 8).toNat

/-! ### Cost and path (06 R113 to R115) -/

/-- 06 R113: the cost of the cell at column x, row y: the sum of differences, or 17,344 when a pixel is not usable from a side. -/
def cellCost (l r : Pixels) (x y : Int) : Nat :=
  let ps := (cellPositions x y).map (fun q => ((l q.1 q.2).val, (r q.1 q.2).val))
  if ps.all (fun p => p.1.isSome && p.2.isSome) then
    (ps.map (fun p => absDiff (p.1.getD 0) (p.2.getD 0))).foldl (· + ·) 0
  else 17344

/-- 06 R114: the column of the row above that gives column q its least value: its own when it shares the least, else q-1. -/
def predecessor (above : List Nat) (q : Nat) : Nat :=
  let at0 := above.getD q 0
  let left := if q = 0 then none else above[q - 1]?
  let right := above[q + 1]?
  let least := min at0 (min (left.getD at0) (right.getD at0))
  if at0 = least then q else if left = some least then q - 1 else q + 1

/-- 06 R114: the accumulated row from the row above and the costs of a row. -/
def accumulateRow (above costs : List Nat) : List Nat :=
  ((List.range costs.length).zip costs).map (fun e => e.2 + above.getD (predecessor above e.1) 0)

/-- 06 R114: the accumulated rows below a first row. -/
def accumulate (above : List Nat) : List (List Nat) → List (List Nat)
  | [] => [above]
  | c :: cs => above :: accumulate (accumulateRow above c) cs

/-- 06 R115: in the bottom row, the column with the least value, nearest the centre, lower column first. -/
def bottomColumn (row : List Nat) : Nat :=
  let centre := (row.length - 1) / 2
  let better := fun a b : Nat × Nat =>
    decide (a.2 < b.2 ∨ (a.2 = b.2 ∧ (absDiff a.1 centre < absDiff b.1 centre
      ∨ (absDiff a.1 centre = absDiff b.1 centre ∧ a.1 < b.1))))
  match (List.range row.length).zip row with
  | [] => 0
  | e :: es => (es.foldl (fun b c => if better c b then c else b) e).1

/-- 06 R115: the path's columns from the row of column `q` up to the top, bottom row first. -/
def tracePath (q : Nat) : List (List Nat) → List Nat
  | [] => [q]
  | above :: rest => q :: tracePath (predecessor above q) rest

/-- 06 R114, R115: the column of the path in each row, top row first, from the costs of the rows. -/
def seamColumns : List (List Nat) → List Nat
  | [] => []
  | first :: rest =>
    match (accumulate first rest).reverse with
    | [] => []
    | bottom :: above => (tracePath (bottomColumn bottom) above).reverse

/-- 06 R113 to R116: the seam list of a region (none: absent) and whether it was set straight (NARROW). -/
def seamOf (g : Region) (rc : Nat) (l r : Pixels) : Option (List Int) × Bool :=
  let qc := g.qc
  if 5 ≤ qc then
    let costs := (List.range rc).map (fun row : Nat => (List.range qc).map (fun q : Nat =>
      cellCost l r (g.left + 8 * (q : Int)) (8 * (row : Int))))
    (some ((seamColumns costs).map (fun q : Nat => g.left + 8 * (q : Int) + 4)), false)
  else if 1 ≤ qc then
    (some (List.replicate rc (g.left + 8 * (((qc - 1) / 2 : Nat) : Int) + 4)), true)
  else if g.ol < g.orr ∧ g.b < g.orr then
    (some (List.replicate rc ((g.b + g.orr) / 2)), true)
  else (none, true)

/-- The words of a list of canvas positions from one side. -/
def pixelWords (p : Pixels) (positions : List (Int × Int)) : List Nat :=
  positions.flatMap (fun q => (p q.1 q.2).words)

/-- The positions of the gain cells of an overlap. -/
def gainPositions (ol orr : Int) (rc : Nat) : List (Int × Int) :=
  (gainCells ol orr rc).flatMap (fun c => cellPositions c.1 c.2)

/-- The positions of the seam cells of a region; none for a straight seam (06 R116). -/
def seamPositions (g : Region) (rc : Nat) : List (Int × Int) :=
  if 5 ≤ g.qc then
    (List.range rc).flatMap (fun row : Nat => (List.range g.qc).flatMap (fun q : Nat =>
      cellPositions (g.left + 8 * (q : Int)) (8 * (row : Int))))
  else []

/-! ### The feather (07 R129, R130) -/

/-- 07 R129: the weight of the right side at column u for a seam entry s. -/
def featherWeight (u s : Int) : Nat := (clampInt 0 16 (u - s + 8)).toNat

/-- 07 R129: the blend of two usable values. -/
def blend (w l r : Nat) : Nat := (l * (16 - w) + r * w + 8) / 16

/-- 07 R128 to R130: two sides joined with weight w of the right one: the value (none: neither side is usable), and the words read for it: those of each side of non-zero weight, and of the other side when none of those is usable. -/
def joinSides (w : Nat) (l r : Sample) : Sample :=
  if w = 0 then
    match l.val with
    | some v => { val := some v, words := l.words }
    | none => { val := r.val, words := l.words ++ r.words }
  else if 16 ≤ w then
    match r.val with
    | some v => { val := some v, words := r.words }
    | none => { val := l.val, words := r.words ++ l.words }
  else
    { words := l.words ++ r.words,
      val := match l.val, r.val with
        | some a, some b => some (blend w a b)
        | some a, none => some a
        | none, v => v }

end Sys2Proof.Machine
end

