-- ==== Sys2Proof/Machine/Search.lean ====
section
/-! DEFINITION. Patch selection (02 R24 to R28) and the search of a patch (02 R30 to R36), as functions of memory and of the sets. -/
namespace Sys2Proof.Machine

/-! ### Selecting a patch set -/

/-- What a selection reads: the reference slot, the grid of the session, the kind of set, the sweep direction, texture_min, and the words whose read has failed. -/
structure SelectionView where
  mem : List Host.Cell
  slot : Fin 8
  gw : Nat
  gh : Nat
  kind : SetKind
  left : Bool
  textureMin : Nat
  failed : List Nat

/-- 02 R24: the sweep columns of the set kind's region, `lo .. hi`. -/
def SelectionView.region (v : SelectionView) : Nat × Nat :=
  match v.kind with
  | .leading => (v.gw / 2, v.gw - 2)
  | .calibration => (1, v.gw - 2)
  | .closure => (1, v.gw / 2 - 1)

/-- 02 R24: the raw grid column of a sweep column. -/
def SelectionView.rawColumn (v : SelectionView) (i : Nat) : Nat :=
  if v.left then v.gw - 1 - i else i

/-- 02 R24: the candidates as (sweep column, row): rows 1 .. GH-2, columns of the region. -/
def SelectionView.cells (v : SelectionView) : List (Nat × Nat) :=
  let (lo, hi) := v.region
  (List.range v.gh).flatMap (fun j => (List.range v.gw).filterMap (fun i =>
    if 1 ≤ j ∧ j + 2 ≤ v.gh ∧ lo ≤ i ∧ i ≤ hi then some (i, j) else none))

/-- The word that holds a cell's grid score. -/
def SelectionView.scoreWord (v : SelectionView) (c : Nat × Nat) : Nat :=
  wordOf (gridAddr v.slot (v.rawColumn c.1) c.2)

/-- A candidate cell with its score: (score, sweep column, row). -/
abbrev Candidate := Nat × Nat × Nat

/-- 02 R25: higher score first, then the lower row, then the lower sweep column. -/
def candidateBefore (a b : Candidate) : Bool :=
  decide (a.1 > b.1 ∨ (a.1 = b.1 ∧ (a.2.2 < b.2.2 ∨ (a.2.2 = b.2.2 ∧ a.2.1 ≤ b.2.1))))

/-- 02 R25, R27: the candidates in the order they are considered; a cell whose score read failed is passed over. -/
def SelectionView.candidates (v : SelectionView) : List Candidate :=
  sortBy candidateBefore ((v.cells.filter (fun c => !v.failed.contains (v.scoreWord c))).map
    (fun c => (gridScore v.mem v.slot (v.rawColumn c.1) c.2, c.1, c.2)))

/-- 02 R26: two cells touch, sharing an edge or a corner. -/
def cellsTouch (a b : Nat × Nat) : Bool :=
  decide (absDiff a.1 b.1 ≤ 1 ∧ absDiff a.2 b.2 ≤ 1)

/-- 02 R27: the words of the 256 pixels of a raw cell, values and marks. -/
def SelectionView.cellWords (v : SelectionView) (i j : Nat) : List Nat :=
  (List.range 16).flatMap (fun y =>
    [wordOf (thumbAddr v.slot (16 * i) (16 * j + y)),
     wordOf (thumbAddr v.slot (16 * i + 8) (16 * j + y)),
     wordOf (thumbMarkAddr v.slot (16 * i) (16 * j + y))])

/-- 02 R27: the 256 pixels of a raw cell, row by row. -/
def SelectionView.cellPixels (v : SelectionView) (i j : Nat) : List (Option Nat) :=
  (List.range 16).flatMap (fun y => (List.range 16).map (fun x =>
    thumbPixel v.mem v.slot (16 * i + x) (16 * j + y)))

/-- A selection as far as it has come: cells taken, records, words read, and whether it has ended. -/
structure SelectionAcc where
  taken : List (Nat × Nat) := []
  set : List Patch := []
  words : List Nat := []
  ended : Bool := false

/-- 02 R26 to R28: one candidate considered. -/
def SelectionView.consider (v : SelectionView) (acc : SelectionAcc) (c : Candidate) : SelectionAcc :=
  let cell := (v.rawColumn c.2.1, c.2.2)
  if acc.ended then acc
  else if Config.patchRecords ≤ acc.set.length ∨ c.1 < v.textureMin then { acc with ended := true }
  else if acc.taken.any (cellsTouch cell) then acc
  else
    let words := v.cellWords cell.1 cell.2
    let px := v.cellPixels cell.1 cell.2
    if words.any (fun w => v.failed.contains w) || !px.all Option.isSome then
      { acc with words := acc.words ++ words }
    else
      { acc with
        taken := acc.taken ++ [cell]
        set := acc.set ++ [{ x := 16 * cell.1, y := 16 * cell.2, template := px.map (fun o => o.getD 0),
                             state := .active, miss := 0, last := none }]
        words := acc.words ++ words }

/-- 02 R24 to R28: the selection, with the words it reads: every candidate's grid score, then the pixels of the cells whose copy is made. -/
def SelectionView.run (v : SelectionView) : SelectionAcc :=
  v.candidates.foldl v.consider { words := v.cells.map v.scoreWord }

/-! ### Searching a patch -/

/-- 02 R36: the outcome of a patch in a frame. -/
inductive PatchOutcome where
  | outOfView | outside | notYet | edge | poor | ambiguous
  | accepted (du dv : Int)
  deriving DecidableEq, Repr, Inhabited

/-- What the search of a set reads: the frame's thumbnail, its size, the radius in force, the set's prediction, the sweep direction, whether the set is the closure set, and the limits of R34. -/
structure SearchView where
  mem : List Host.Cell
  slot : Fin 8
  wt : Nat
  ht : Nat
  radius : Nat
  pu : Int
  pv : Int
  left : Bool
  closure : Bool
  matchMeanMax : Nat
  distinctMin : Nat

/-- 02 R30: the integer part of the prediction. -/
def SearchView.rounded (v : SearchView) : Int × Int := (roundDiv v.pu 16, roundDiv v.pv 16)

/-- 02 R30: the base position of a patch. -/
def SearchView.base (v : SearchView) (p : Patch) : Int × Int :=
  (p.x - v.rounded.1, p.y - v.rounded.2)

/-- 02 R31: the patch meets the trailing edge. -/
def SearchView.trailing (v : SearchView) (p : Patch) : Bool :=
  let (bx, _) := v.base p
  if v.left then decide (bx + 15 + v.radius > (v.wt : Int) - 1) else decide (bx - v.radius < 0)

/-- 02 R31: the patch's window lies inside the thumbnail. -/
def SearchView.windowInside (v : SearchView) (p : Patch) : Bool :=
  let (bx, bY) := v.base p
  decide (0 ≤ bx - v.radius ∧ bx + 15 + v.radius ≤ (v.wt : Int) - 1
    ∧ 0 ≤ bY - v.radius ∧ bY + 15 + v.radius ≤ (v.ht : Int) - 1)

/-- 02 R30, R31: the patch is searched in this frame. -/
def SearchView.searched (v : SearchView) (p : Patch) : Bool :=
  decide (p.state = .active) && !v.trailing p && v.windowInside p

/-- 02 R32, 10 R166: the words of a searched patch's window, values and marks. -/
def SearchView.windowWords (v : SearchView) (p : Patch) : List Nat :=
  let (bx, bY) := v.base p
  let r : Int := v.radius
  (spanInts (bY - r) (bY + 16 + r)).flatMap (fun y =>
    (spanInts (bx - r) (bx + 16 + r)).flatMap (fun x =>
      [wordOf (thumbAddr v.slot x.toNat y.toNat), wordOf (thumbMarkAddr v.slot x.toNat y.toNat)]))

/-- 02 R32: the SAD of a template against the block whose top-left pixel is (x, y); 65,535 when the block holds an invalid pixel. -/
def SearchView.sad (v : SearchView) (template : List Nat) (x y : Int) : Nat :=
  let block := (List.range 16).flatMap (fun j : Nat => (List.range 16).map (fun i : Nat =>
    thumbPixel v.mem v.slot (x + (i : Int)).toNat (y + (j : Int)).toNat))
  if block.all Option.isSome then
    ((template.zip block).map (fun t => absDiff t.1 (t.2.getD 0))).foldl (· + ·) 0
  else 65535

/-- A candidate offset with its SAD: (sad, ox, oy). -/
abbrev Offset := Nat × Int × Int

/-- 02 R33: `a` ranks before `b`: smaller SAD, then smaller |ox| + |oy|, then lower oy, then lower ox. -/
def offsetBefore (a b : Offset) : Bool :=
  let da := a.2.1.natAbs + a.2.2.natAbs
  let db := b.2.1.natAbs + b.2.2.natAbs
  decide (a.1 < b.1 ∨ (a.1 = b.1 ∧ (da < db ∨ (da = db ∧
    (a.2.2 < b.2.2 ∨ (a.2.2 = b.2.2 ∧ a.2.1 < b.2.1))))))

/-- 02 R33: the best candidate of a list of offsets. -/
def bestOffset : List Offset → Option Offset
  | [] => none
  | o :: os => some (os.foldl (fun b c => if offsetBefore c b then c else b) o)

/-- 02 R33: the second SAD: the least among the offsets at distance at least 2 from the best. -/
def secondSad (best : Offset) (os : List Offset) : Option Nat :=
  ((os.filter (fun o => 2 ≤ max (o.2.1 - best.2.1).natAbs (o.2.2 - best.2.2).natAbs)).map
    Prod.fst).min?

/-- 02 R35: the fraction on one axis from the SADs before, at and after the best. -/
def fraction (before at0 after : Nat) : Int :=
  let den : Int := (before : Int) - 2 * at0 + after
  if den ≤ 0 then 0 else clampInt (-8) 8 (roundDiv (8 * ((before : Int) - after)) den)

/-- 02 R34: the outcome of a searched patch from its candidates, `sadAt ox oy` giving the SAD of an offset. -/
def judgePatch (radius matchMeanMax distinctMin : Nat) (ru rv : Int) (offsets : List Offset)
    (sadAt : Int → Int → Nat) : PatchOutcome :=
  match bestOffset offsets with
  | none => .edge
  | some best =>
    let (s0, ox, oy) := best
    if ¬(ox.natAbs < radius ∧ oy.natAbs < radius) then .edge
    else if s0 > 256 * matchMeanMax then .poor
    else if ((secondSad best offsets).getD 65535 : Int) - s0 < distinctMin then .ambiguous
    else
      let fx := fraction (sadAt (ox - 1) oy) s0 (sadAt (ox + 1) oy)
      let fy := fraction (sadAt ox (oy - 1)) s0 (sadAt ox (oy + 1))
      .accepted (16 * ru - 16 * ox - fx) (16 * rv - 16 * oy - fy)

/-- 02 R31 to R36: the outcome of an ACTIVE patch in a frame. -/
def SearchView.outcome (v : SearchView) (p : Patch) : PatchOutcome :=
  if v.trailing p then .outOfView
  else if !v.windowInside p then
    if v.closure && p.last.isNone then .notYet else .outside
  else
    let (bx, bY) := v.base p
    let r : Int := v.radius
    let sadAt := fun ox oy : Int => v.sad p.template (bx + ox) (bY + oy)
    let offsets := (spanInts (-r) (r + 1)).flatMap (fun oy =>
      (spanInts (-r) (r + 1)).map (fun ox => (sadAt ox oy, ox, oy)))
    judgePatch v.radius v.matchMeanMax v.distinctMin v.rounded.1 v.rounded.2 offsets sadAt

/-- 02 R36: the report of a set: for each record, its outcome, or none for a record that was not ACTIVE. -/
def SearchView.report (v : SearchView) (set : List Patch) : List (Option PatchOutcome) :=
  set.map (fun p => if p.state = .active then some (v.outcome p) else none)

/-- 02 R37, 10 R166: the words that the search of a set reads. -/
def SearchView.reads (v : SearchView) (set : List Patch) : List Nat :=
  (set.filter v.searched).flatMap v.windowWords

/-! ### Consensus (03 R41 to R44) -/

/-- The displacements of the ACCEPTED entries of a report. -/
def acceptedOf (report : List (Option PatchOutcome)) : List (Int × Int) :=
  report.filterMap (fun o => match o with
    | some (.accepted du dv) => some (du, dv)
    | _ => none)

/-- 03 R41: the lower median. -/
def lowerMedian (l : List Int) : Int :=
  (sortBy (fun a b : Int => decide (a ≤ b)) l).getD ((l.length - 1) / 2) 0

/-- 03 R42: the inlier box around the medians of the accepted entries. -/
def isInlier (accepted : List (Int × Int)) (d : Int × Int) : Bool :=
  let mu := lowerMedian (accepted.map Prod.fst)
  let mv := lowerMedian (accepted.map Prod.snd)
  decide ((d.1 - mu).natAbs ≤ 16 ∧ (d.2 - mv).natAbs ≤ 16)

/-- 03 R43: the confidence class from m and n. -/
def confClass (m n : Nat) : ConfClass :=
  if 4 ≤ m ∧ 2 * n ≤ 3 * m then .good
  else if 2 ≤ m then .weak
  else .none

/-- 03 R41 to R43: the consensus of a report. -/
def consensusOf (report : List (Option PatchOutcome)) : Consensus :=
  let accepted := acceptedOf report
  let inliers := accepted.filter (isInlier accepted)
  let m := inliers.length
  { cls := confClass m accepted.length, n := accepted.length, m := m,
    est := if m = 0 then none
      else some (roundDiv (sumInts (inliers.map Prod.fst)) m, roundDiv (sumInts (inliers.map Prod.snd)) m),
    memory := false }

/-- 03 R45: the consensus of a memory-error frame. -/
def memoryConsensus : Consensus := { cls := .none, n := 0, m := 0, est := none, memory := true }

/-- 03 R44: the result used and its source. -/
def resultUsed (c : Consensus) (pu pv : Int) : (Int × Int) × ResultSource :=
  match c.cls, c.est with
  | .good, some (eu, ev) => ((eu, ev), .image)
  | .weak, some (eu, ev) => ((roundDiv (eu + pu) 2, roundDiv (ev + pv) 2), .blend)
  | _, _ => ((pu, pv), .predict)

/-- 02 R38: a record after the frame, and whether its miss count reaches 3. A record whose count reaches 3 keeps 2 and stays ACTIVE until PATCH_LOST takes it (notes/assumptions/10.md). -/
def missStep (accepted : List (Int × Int)) (p : Patch) : Option PatchOutcome → Patch × Bool
  | none => (p, false)
  | some .outOfView => ({ p with state := .outOfView }, false)
  | some .notYet => (p, false)
  | some (.accepted du dv) =>
    if isInlier accepted (du, dv) then ({ p with miss := 0, last := some (du, dv) }, false)
    else if p.miss + 1 < 3 then ({ p with miss := p.miss + 1 }, false) else ({ p with miss := 2 }, true)
  | some .edge | some .poor | some .ambiguous | some .outside =>
    if p.miss + 1 < 3 then ({ p with miss := p.miss + 1 }, false) else ({ p with miss := 2 }, true)

/-- 02 R38: the miss counting of a set, and the ids of the records whose count reaches 3. -/
def missCount (set : List Patch) (report : List (Option PatchOutcome)) : List Patch × List Nat :=
  let accepted := acceptedOf report
  let stepped := (set.zip report).map (fun pr => missStep accepted pr.1 pr.2)
  (stepped.map Prod.fst,
    ((List.range stepped.length).zip stepped).filterMap (fun e => if e.2.2 then some e.1 else none))

/-- 02 R39: the number of ACTIVE records. -/
def activeCount (set : List Patch) : Nat := (set.filter (fun p => decide (p.state = .active))).length

end Sys2Proof.Machine
end

