-- ==== Sys2Proof/Machine/Views.lean ====
section
/-! DEFINITION. What each unit reads and computes for the work it has in hand: the prepare pass, the search, a selection, a seam job, a strip part of a commit, a strip line. -/
namespace Sys2Proof.Machine

/-- A slot seen through the column map of the session. -/
def State.frameView (s : State) (slot : Fin 8) (failed : List Nat) : FrameView :=
  { mem := s.mem, map := s.igu.columnMap.getD default, wf := s.cfg.wf, hf := s.cfg.hf,
    slot := slot, failed := failed }

/-! ### Tracking -/

/-- 02 R30: the radius in force for the next search. -/
def State.radiusInForce (s : State) : Nat :=
  if s.tku.lock.state = .lost ∨ s.swc.state = .recalibrating then min (2 * s.cfg.radius) 24
  else s.cfg.radius

/-- 02 R30: the search of the main or of the closure set of an operation. -/
def State.searchView (s : State) (op : TrackOp) (closure : Bool) : SearchView :=
  let p := if closure then op.cpred.getD (0, 0) else (op.pu, op.pv)
  { mem := s.mem, slot := op.slot, wt := s.cfg.wt, ht := s.cfg.ht, radius := op.radius,
    pu := p.1, pv := p.2, left := s.left, closure := closure,
    matchMeanMax := s.cfg.matchMeanMax, distinctMin := s.cfg.distinctMin }

/-- 02 R37: the words that a search reads, main set first. -/
def State.searchReads (s : State) (op : TrackOp) : List Nat :=
  (s.searchView op false).reads s.tku.mainSet
    ++ (if op.cpred.isSome then (s.searchView op true).reads s.tku.closureSet else [])

/-- 02 R23: a selection in the session's configuration and direction. -/
def State.selectionView (s : State) (sel : Selection) : SelectionView :=
  { mem := s.mem, slot := sel.slot, gw := s.cfg.gw, gh := s.cfg.gh, kind := sel.kind, left := s.left,
    textureMin := s.cfg.textureMin, failed := sel.rd.failed }

/-! ### Keys on the canvas -/

/-- A key as SMU and BLU read it (06 R108). -/
def State.keyView (s : State) (r : KeyRecord) (failed : List Nat) : KeyView :=
  { view := s.frameView (r.slot.getD 0) failed, up := placeU r.u, vp := placeV r.v, left := s.left,
    gain := r.gain.getD 256 }

/-- The key record k, or a blank one. -/
def State.keyOr (s : State) (k : Nat) : KeyRecord := (s.keyAt k).getD default

/-- 06 R119: the held strips' content at canvas column `c` (from the start of the canvas), row y: luma. -/
def State.heldLuma (s : State) (failed : List Nat) (c y : Int) : Sample :=
  let j := (c / 128).toNat
  match s.stripAt j with
  | some r =>
    if 0 ≤ c ∧ r.isHeld then
      let a := stripLumaAddr r.slot (c % 128).toNat y.toNat
      { words := [wordOf a],
        val := if failed.contains (wordOf a) then none else some (sampleAt s.mem a) }
    else { val := none, words := [] }
  | none => { val := none, words := [] }

/-- 07 R135: the held chroma sample of the luma pixel at canvas column `c`, row y. -/
def State.heldChroma (s : State) (failed : List Nat) (plane : ChromaPlane) (c y : Int) : Sample :=
  let j := (c / 128).toNat
  match s.stripAt j with
  | some r =>
    if 0 ≤ c ∧ r.isHeld then
      let q := ((c % 128) / 2).toNat
      let a := match plane with
        | .cb => stripCbAddr r.slot q (y / 2).toNat
        | .cr => stripCrAddr r.slot q (y / 2).toNat
      { words := [wordOf a],
        val := if failed.contains (wordOf a) then none else some (sampleAt s.mem a) }
    else { val := none, words := [] }
  | none => { val := none, words := [] }

/-- 06 R119: canvas column u of the virtual key 0, when it lies in Um .. Um + Wf - 1. -/
def State.virtualColumn (s : State) (u : Int) : Option Int :=
  match s.cvm.um with
  | some um => if um ≤ u ∧ u < um + s.cfg.wf then some (u - um) else none
  | none => none

/-- 06 R119: luma of the virtual key 0. -/
def State.virtualLuma (s : State) (failed : List Nat) (u y : Int) : Sample :=
  match s.virtualColumn u with
  | some c => s.heldLuma failed c y
  | none => { val := none, words := [] }

/-! ### Seam jobs (06) -/

/-- 06 R109, R112: the region of the ordinary job (k-1 | k). -/
def State.ordinaryRegion (s : State) (k : Nat) : Region :=
  regionOf (placeU (s.keyOr k).u) (placeU (s.keyOr (k - 1)).u + s.cfg.wf)
    (if 2 ≤ k then (s.keyAt (k - 2)).bind KeyRecord.seam else none)

/-- 06 R120: the region of the closure job (n | V0). -/
def State.closureRegion (s : State) (n : Nat) : Region :=
  let up := placeU (s.keyOr n).u
  let um := s.cvm.um.getD 0
  regionOf (max up um) (min up um + s.cfg.wf)
    (if 1 ≤ n then (s.keyAt (n - 1)).bind KeyRecord.seam else none)

/-- 06 R110: the gain of key k from the job (k-1 | k), and whether it was clamped. -/
def State.jobGain (s : State) (k : Nat) (failed : List Nat) : Nat × Bool :=
  let g := s.ordinaryRegion k
  let kl := s.keyOr (k - 1)
  let kr := s.keyOr k
  let sums := gainSums (s.keyView kl failed).luma (s.keyView kr failed).luma g.ol g.orr s.cfg.rc
  clampedGain (unclampedGain sums (kl.gain.getD 256) kl.exposure kr.exposure)

/-- 06 R113: the two sides of an ordinary job, gained; the right key's gain is the one just computed. -/
def State.ordinarySides (s : State) (k : Nat) (failed : List Nat) : Pixels × Pixels :=
  ((s.keyView (s.keyOr (k - 1)) failed).gainedLuma,
   { s.keyView (s.keyOr k) failed with gain := (s.jobGain k failed).1 }.gainedLuma)

/-- 06 R120: the two sides of the closure job: key n gained, held luma as read. -/
def State.closureSides (s : State) (n : Nat) (failed : List Nat) : Pixels × Pixels :=
  ((s.keyView (s.keyOr n) failed).gainedLuma, s.virtualLuma failed)

/-- 06 R113 to R116, R120: the seam of a job and whether it was set straight. -/
def State.jobSeam (s : State) (failed : List Nat) : SeamJob → Option (List Int) × Bool
  | .ordinary k =>
    let sides := s.ordinarySides k failed
    seamOf (s.ordinaryRegion k) s.cfg.rc sides.1 sides.2
  | .closure n =>
    let sides := s.closureSides n failed
    seamOf (s.closureRegion n) s.cfg.rc sides.1 sides.2

/-- 06 R108: the words that a job reads. DESIGN CHOICE (notes/assumptions/44.md): every in-frame pixel of every gain and seam cell is read from both sides, also in a cell that cannot count because the other side is out of frame or INVALID there. -/
def State.jobReads (s : State) : SeamJob → List Nat
  | .ordinary k =>
    let g := s.ordinaryRegion k
    let l := (s.keyView (s.keyOr (k - 1)) []).luma
    let r := (s.keyView (s.keyOr k) []).luma
    let at0 := gainPositions g.ol g.orr s.cfg.rc ++ seamPositions g s.cfg.rc
    pixelWords l at0 ++ pixelWords r at0
  | .closure n =>
    let g := s.closureRegion n
    let at0 := seamPositions g s.cfg.rc
    pixelWords (s.keyView (s.keyOr n) []).luma at0 ++ pixelWords (s.virtualLuma []) at0

/-- 06 R117: a failed word lies in a key's slot. -/
def failedInSlot (failed : List Nat) (slot : Option (Fin 8)) : Bool :=
  match slot with
  | some i => failed.any (fun w => decide (frameBase i ≤ w ∧ w < frameBase i + Config.frameSlotBytes))
  | none => false

/-- 06 R120: a failed word lies in the strip area. -/
def failedInStrips (failed : List Nat) : Bool := failed.any (fun w => decide (stripAreaBase ≤ w))

/-! ### The pixels of a commit (07) -/

/-- 07 R127: the mapped column of canvas column u. -/
def mappedColumn (wrap : Option Int) (u : Int) : Int :=
  match wrap with
  | some um => if u < um then u else u - um
  | none => u

/-- 07 R129: the weight of the right key in the seam before it. -/
def seamWeight (seam : Option (List Int)) (rightUp u y : Int) : Nat :=
  match seam with
  | some l => featherWeight u (l.getD (y / 8).toNat 0)
  | none => if u < rightUp then 0 else 16

/-- What is written at a canvas position: nothing (the held pixel, read from these words, stays), or a value (none: a hole) with the words read for it. -/
inductive PixelPut where
  | leave (words : List Nat)
  | put (px : Sample)
  deriving Repr

/-- 07 R125, R126: the two sides of a commit for key j joined by the seam (j-1 | j), for any plane. -/
def State.sweepSide (s : State) (j : Nat) (pixel : KeyRecord → Sample) (u y : Int) : Sample :=
  let r := s.keyOr j
  if j = 0 then joinSides 16 { val := none, words := [] } (pixel r)
  else
    let l := s.keyOr (j - 1)
    joinSides (seamWeight l.seam (placeU r.u) u y) (pixel l) (pixel r)

/-- 07 R135: the closure side joined to the sweep side. -/
def closureSide (seam : Option (List Int)) (um u y : Int) (sweep held : Sample) : PixelPut :=
  let w := seamWeight seam um u y
  if w = 16 ∧ held.val.isSome then .leave held.words else .put (joinSides w sweep held)

/-- 07 R128 to R130, R135: what a commit writes at luma pixel (u, y). -/
def State.commitLuma (s : State) (c : Commit) (failed : List Nat) (u y : Int) : PixelPut :=
  let sweep := s.sweepSide c.key (fun r => (s.keyView r failed).gainedLuma u y) u y
  match c.kind with
  | .ordinary | .final => .put sweep
  | .closure => closureSide (s.keyOr c.key).seam (s.cvm.um.getD 0) u y sweep (s.virtualLuma failed u y)

/-- A chroma sample is usable when both of its components are; it needs the words of both. -/
def chromaPair (own other : Sample) : Sample :=
  { val := if other.val.isSome then own.val else none, words := own.words ++ other.words }

/-- The other chroma plane. -/
def ChromaPlane.other : ChromaPlane → ChromaPlane
  | .cb => .cr
  | .cr => .cb

/-- A key's chroma sample in a plane, usable when the pair is. -/
def KeyView.chromaOf (k : KeyView) (plane : ChromaPlane) (u y : Int) : Sample :=
  chromaPair (k.chroma plane u y) (k.chroma plane.other u y)

/-- 07 R135: the virtual key 0's chroma sample in a plane. -/
def State.virtualChroma (s : State) (failed : List Nat) (plane : ChromaPlane) (u y : Int) : Sample :=
  match s.virtualColumn u with
  | some c => chromaPair (s.heldChroma failed plane c y) (s.heldChroma failed plane.other c y)
  | none => { val := none, words := [] }

/-- 07 R128 to R130, R135: what a commit writes for the chroma sample of luma pixel (u, y), y even. -/
def State.commitChroma (s : State) (c : Commit) (failed : List Nat) (plane : ChromaPlane) (u y : Int) :
    PixelPut :=
  let sweep := s.sweepSide c.key (fun r => (s.keyView r failed).chromaOf plane u y) u y
  match c.kind with
  | .ordinary | .final => .put sweep
  | .closure =>
    closureSide (s.keyOr c.key).seam (s.cvm.um.getD 0) u y sweep (s.virtualChroma failed plane u y)

/-- The words read for a position. -/
def PixelPut.words : PixelPut → List Nat
  | .leave words => words
  | .put px => px.words

/-- 07 R128, R135: the words read for a position of a commit: its luma, and its chroma where the position carries a chroma sample. -/
def State.commitReads (s : State) (c : Commit) (failed : List Nat) (withChroma : Bool) (u y : Int) :
    List Nat :=
  (s.commitLuma c failed u y).words
    ++ (if withChroma then
      (s.commitChroma c failed .cb u y).words ++ (s.commitChroma c failed .cr u y).words else [])

/-- The strip offset of the first column of a part. -/
def StripPart.loOffset (p : StripPart) (wrap : Option Int) : Nat :=
  (mappedColumn wrap p.lo - 128 * (p.strip : Int)).toNat

/-- The width of a part in columns. -/
def StripPart.columns (p : StripPart) : Nat := (p.hi - p.lo).toNat

/-- The words that a strip part reads; a chroma sample stands at even rows and even strip offsets (07 R128, R131). -/
def State.partReads (s : State) (c : Commit) (run : CommitRun) (p : StripPart) : List Nat :=
  (spanInts 0 s.cfg.hc).flatMap (fun y =>
    (spanInts p.lo p.hi).flatMap (fun u =>
      s.commitReads c run.rd.failed (decide (y % 2 = 0 ∧ mappedColumn run.wrap u % 2 = 0)) u y))

/-- One word write from eight positions of a strip row: for each, what is written and whether its computation met a failed word; a hole takes the fill value and, when holes count, is counted (07 R130, R133). -/
def wordFromPuts (addr : Nat) (fill : Nat) (countHoles : Bool) (failed : List Nat)
    (puts : List (Option PixelPut)) : WordWrite :=
  { addr := addr
    bytes := puts.map (fun o => match o with
      | some (.put px) => some (BitVec.ofNat 8 (px.val.getD fill))
      | some (.leave _) => none
      | none => none)
    holes := if countHoles then
        (puts.filter (fun o => match o with
          | some (.put px) => px.val.isNone
          | some (.leave _) => false
          | none => false)).length
      else 0
    spoilt := puts.any (fun o => match o with
      | some p => p.words.any (fun w => failed.contains w)
      | none => false) }

/-- 07 R128: the luma words that a strip part writes. -/
def State.partLumaWrites (s : State) (c : Commit) (run : CommitRun) (p : StripPart) (slot : StripSlot) :
    List WordWrite :=
  let lo := p.loOffset run.wrap
  let hi := lo + p.columns
  (List.range s.cfg.hc).flatMap (fun y : Nat => (List.range 16).filterMap (fun w =>
    if 8 * w < hi ∧ lo < 8 * w + 8 then
      some (wordFromPuts (stripLumaAddr slot (8 * w) y) s.cfg.fillY true run.rd.failed
        ((List.range 8).map (fun i =>
          let o := 8 * w + i
          if lo ≤ o ∧ o < hi then
            some (s.commitLuma c run.rd.failed (p.lo + (o : Int) - (lo : Int)) y)
          else none)))
    else none))

/-- 07 R128, R131: the chroma words of a plane that a strip part writes: the chroma column q is computed at the even offset 2q. -/
def State.partChromaWrites (s : State) (c : Commit) (run : CommitRun) (p : StripPart) (slot : StripSlot)
    (plane : ChromaPlane) : List WordWrite :=
  let lo := p.loOffset run.wrap
  let hi := lo + p.columns
  (List.range (s.cfg.hc / 2)).flatMap (fun r : Nat => (List.range 8).filterMap (fun w =>
    let puts := (List.range 8).map (fun i =>
      let o := 2 * (8 * w + i)
      if lo ≤ o ∧ o < hi then
        some (s.commitChroma c run.rd.failed plane (p.lo + (o : Int) - (lo : Int)) (2 * (r : Int)))
      else none)
    if puts.any Option.isSome then
      some (wordFromPuts
        (match plane with
          | .cb => stripCbAddr slot (8 * w) r
          | .cr => stripCrAddr slot (8 * w) r) s.cfg.fillC false run.rd.failed puts)
    else none))

/-- 07 R128, R135: the pixel writes of a strip part; a word of which nothing is written is no access. -/
def State.partWrites (s : State) (c : Commit) (run : CommitRun) (p : StripPart) : List WordWrite :=
  match s.stripAt p.strip with
  | none => []
  | some r =>
    (s.partLumaWrites c run p r.slot ++ s.partChromaWrites c run p r.slot .cb
      ++ s.partChromaWrites c run p r.slot .cr).filter (fun w => w.bytes.any Option.isSome)

/-- 10 R168: the fill of a created strip, in whole words. -/
def State.fillWrites (s : State) (slot : StripSlot) : List WordWrite :=
  let word := fun (a v : Nat) => wholeWord a (List.replicate 8 (BitVec.ofNat 8 v))
  (List.range s.cfg.hc).flatMap (fun y : Nat => (List.range 16).map (fun w =>
      word (stripLumaAddr slot (8 * w) y) s.cfg.fillY))
    ++ (List.range (s.cfg.hc / 2)).flatMap (fun r : Nat => (List.range 8).flatMap (fun w =>
      [word (stripCbAddr slot (8 * w) r) s.cfg.fillC, word (stripCrAddr slot (8 * w) r) s.cfg.fillC]))

/-! ### The lines of a transfer (09 R155) -/

/-- 09 R155: the flags word of a strip. -/
def State.stripFlags (s : State) (r : Strip) : Beat :=
  (if r.isHeld then 1#16 else 0#16) ||| (if r.wrap then 2#16 else 0#16)
    ||| (if r.last then 4#16 else 0#16) ||| (if r.damaged then 8#16 else 0#16)
    ||| (if s.left then 0x100#16 else 0#16)

/-- 09 R155: the lines of a transfer between header and trailer: Hc luma lines, Hc/2 chroma lines. -/
def State.stripLines (s : State) : Nat := s.cfg.hc + s.cfg.hc / 2

/-- 09 R155: the header line. -/
def State.headerLine (s : State) (r : Strip) (session number : Nat) : List Beat :=
  [0x6B6B#16, BitVec.ofNat 16 session, BitVec.ofNat 16 r.index, BitVec.ofNat 16 r.uStart,
   BitVec.ofNat 16 (r.uStart / 65536), BitVec.ofNat 16 r.width, BitVec.ofNat 16 s.cfg.hc,
   s.stripFlags r, BitVec.ofNat 16 number]

/-- 09 R155: the trailer line with a status (0 OK, 1 MEMORY_ERROR, 2 ABORTED). -/
def trailerLine (x : Transfer) (number status : Nat) : List Beat :=
  [0x9494#16, BitVec.ofNat 16 x.session, BitVec.ofNat 16 x.strip, BitVec.ofNat 16 status,
   BitVec.ofNat 16 x.holes, x.flags, BitVec.ofNat 16 number]

/-- 09 R155: the strip columns of a line in the order of its beats: reversed in a LEFT sweep (07 R131). -/
def beatOrder (left : Bool) (n : Nat) : List Nat :=
  if left then (List.range n).reverse else List.range n

/-- A strip sample as OPU sends it: the fill value where its read failed (09 R155). -/
def State.sentSample (s : State) (failed : List Nat) (fill a : Nat) : Nat :=
  if failed.contains (wordOf a) then fill else sampleAt s.mem a

/-- 09 R155: line `n` of a transfer, 1 .. Hc luma, then chroma. -/
def State.stripLine (s : State) (r : Strip) (failed : List Nat) (n : Nat) : List Beat :=
  if n ≤ s.cfg.hc then
    (beatOrder s.left r.width).map (fun o =>
      BitVec.ofNat 16 (s.sentSample failed s.cfg.fillY (stripLumaAddr r.slot o (n - 1))))
  else
    (beatOrder s.left ((r.width + 1) / 2)).map (fun q =>
      BitVec.ofNat 16
        (s.sentSample failed s.cfg.fillC (stripCbAddr r.slot q (n - 1 - s.cfg.hc))
          + 256 * s.sentSample failed s.cfg.fillC (stripCrAddr r.slot q (n - 1 - s.cfg.hc))))

/-- 10 R164: the words that line `n` reads. -/
def State.stripLineReads (s : State) (r : Strip) (n : Nat) : List Nat :=
  if n ≤ s.cfg.hc then
    (List.range r.width).map (fun o => wordOf (stripLumaAddr r.slot o (n - 1)))
  else
    (List.range ((r.width + 1) / 2)).flatMap (fun q =>
      [wordOf (stripCbAddr r.slot q (n - 1 - s.cfg.hc)), wordOf (stripCrAddr r.slot q (n - 1 - s.cfg.hc))])

end Sys2Proof.Machine
end

