-- ==== Sys2Proof/Machine/Access.lean ====
section
/-! DEFINITION. The port to buffer memory (10 R162 to R169): which access each requester presents next, the arbiter's choice, and the completion of an access. -/
namespace Sys2Proof.Machine

/-- A read of an ECC word by a requester. -/
def readAccess (who : Requester) (w : Nat) : Access := { who := who, addr := w, write := none }

/-- A word write by a requester. -/
def writeAccess (who : Requester) (w : WordWrite) : Access :=
  { who := who, addr := w.addr, write := some w }

/-- The first of the words a job needs that it has not read yet. -/
def nextRead (needs : List Nat) (rd : ReadSet) : Option Nat :=
  needs.find? (fun w => !rd.done.contains w)

/-- The frame view of a running prepare pass. -/
def State.prepView (s : State) (p : Prep) : FrameView := s.frameView p.slot p.rd.failed

/-- 10 R162: IGU's next access: raw line writes, then prepare-pass reads, then its writes. DESIGN CHOICE (notes/assumptions/45.md): a line write that comes up goes before a prepare access that already waits for its grant. -/
def State.nextIgu (s : State) : Option Access :=
  match s.igu.lineBuffers.findSome? (fun b => b.writes.head?) with
  | some w => some (writeAccess .igu w)
  | none =>
    match s.igu.prep with
    | none => none
    | some p =>
      match nextRead (prepareReads (s.prepView p)) p.rd with
      | some w => some (readAccess .igu w)
      | none =>
        ((prepareWrites (s.prepView p) s.cfg.wt s.cfg.ht)[p.written]?).map (writeAccess .igu)

/-- 02 R30, R37: TKU's next search read; none once a read has failed. -/
def State.nextSearchRead (s : State) : Option Nat :=
  match s.tku.op with
  | some op =>
    if op.stage = .searching ∧ op.rd.failed = [] then nextRead (s.searchReads op) op.rd else none
  | none => none

/-- 02 R27: TKU's next selection read. -/
def State.nextSelectionRead (s : State) : Option Nat :=
  match s.tku.op with
  | some op =>
    match op.stage, op.selections with
    | .searching, _ => none
    | _, sel :: _ => nextRead (s.selectionView sel).run.words sel.rd
    | _, [] => none
  | none => none

/-- TKU's next access. -/
def State.nextTku (s : State) : Option Access :=
  ((s.nextSearchRead).or s.nextSelectionRead).map (readAccess .tku)

/-- SMU's next read for the running job. -/
def State.nextSeamRead (s : State) : Option Nat :=
  match s.smu.run, s.smu.queue with
  | some run, job :: _ => if run.held then none else nextRead (s.jobReads job) run.rd
  | _, _ => none

/-- SMU's next access. -/
def State.nextSmu (s : State) : Option Access := s.nextSeamRead.map (readAccess .smu)

/-- 07 R132, 10 R168: BLU's next access for the strip part in hand: the fill of a created strip, the reads, the pixel writes. -/
def State.nextBlu (s : State) : Option Access :=
  match s.blu.run, s.blu.queue with
  | some run, c :: _ =>
    match run.part with
    | none => none
    | some p =>
      let fill : Option WordWrite :=
        if p.created then
          match s.stripAt p.strip with
          | some r => (s.fillWrites r.slot)[p.fills]?
          | none => none
        else none
      match fill with
      | some w => some (writeAccess .blu w)
      | none =>
        match nextRead (s.partReads c run p) run.rd with
        | some w => some (readAccess .blu w)
        | none => ((s.partWrites c run p)[p.writes]?).map (writeAccess .blu)
  | _, _ => none

/-- 10 R164: OPU's next read: the line after the one being presented. -/
def State.nextLineRead (s : State) : Option Nat :=
  match s.opu.state, s.opu.xfer with
  | .sending, some x =>
    if x.line < s.stripLines then
      match s.stripAt x.strip with
      | some r => nextRead (s.stripLineReads r (x.line + 1)) x.rd
      | none => none
    else none
  | _, _ => none

/-- OPU's next access. -/
def State.nextOpu (s : State) : Option Access := s.nextLineRead.map (readAccess .opu)

/-- 10 R162: the access a requester presents, if it has one waiting. -/
def State.nextAccess (s : State) : Requester → Option Access
  | .igu => s.nextIgu
  | .tku => s.nextTku
  | .smu => s.nextSmu
  | .blu => s.nextBlu
  | .opu => s.nextOpu

/-- 10 R162: the waiting request of highest priority. -/
def State.highestWaiting (s : State) : Option Access :=
  (s.nextAccess .igu).or ((s.nextAccess .tku).or ((s.nextAccess .smu).or
    ((s.nextAccess .blu).or (s.nextAccess .opu))))

/-- 10 R162: when the grant is none, the waiting request of highest priority is granted. -/
def State.arbitrate (s : State) : State :=
  { s with grant := match s.grant with
      | some g => some g
      | none => s.highestWaiting.map (fun a => { access := a, live := true }) }

/-- What a step that changes a unit's work ends with: FINISHING may be done (05 R100), and a request that has come to wait is granted when the port is free (10 R162). -/
def State.settle (s : State) : State := s.checkDone.arbitrate

/-! ### Completion -/

/-- A read noted in a job's read set. -/
def ReadSet.note (rd : ReadSet) (w : Nat) (failed : Bool) : ReadSet :=
  { done := rd.done ++ [w], failed := if failed then rd.failed ++ [w] else rd.failed }

/-- A read noted in the selection in hand. -/
def noteSelection (w : Nat) (failed : Bool) : List Selection → List Selection
  | [] => []
  | sel :: rest => { sel with rd := sel.rd.note w failed } :: rest

/-- 10 R166: a completed read is noted with its reader; for OPU a failure sets the error-seen mark (09 R158). -/
def State.noteRead (s : State) (who : Requester) (w : Nat) (failed : Bool) : State :=
  match who with
  | .igu => { s with igu.prep := s.igu.prep.map (fun p => { p with rd := p.rd.note w failed }) }
  | .tku =>
    { s with tku.op := s.tku.op.map (fun op =>
        if op.stage = .searching then { op with rd := op.rd.note w failed }
        else { op with selections := noteSelection w failed op.selections }) }
  | .smu => { s with smu.run := s.smu.run.map (fun r => { r with rd := r.rd.note w failed }) }
  | .blu => { s with blu.run := s.blu.run.map (fun r => { r with rd := r.rd.note w failed }) }
  | .opu =>
    { s with opu.xfer := s.opu.xfer.map (fun x =>
        { x with rd := x.rd.note w failed, errorSeen := x.errorSeen || failed }) }

/-- 10 R163: the first line write is made; a buffer whose last write is made is free again. -/
def popLineWrite : List LineBuffer → List LineBuffer
  | [] => []
  | b :: rest =>
    match b.writes with
    | [] => popLineWrite rest
    | [_] => rest
    | _ :: ws => { b with writes := ws } :: rest

/-- 07 R130, R133, 10 R167: what a BLU write adds to the record of its strip. -/
def Strip.written (r : Strip) (holes : Nat) (spoilt : Bool) : Strip :=
  { r with holes := addHold Config.countTop r.holes holes, damaged := r.damaged || spoilt }

/-- A completed write is noted with its writer: IGU's line buffers or prepare pass, BLU's strip part. `failed` says that its merge failed (10 R167). -/
def State.noteWrite (s : State) (who : Requester) (w : WordWrite) (failed : Bool) : State :=
  match who with
  | .igu =>
    if s.igu.lineBuffers.findSome? (fun b => b.writes.head?) = some w then
      { s with igu.lineBuffers := popLineWrite s.igu.lineBuffers }
    else { s with igu.prep := s.igu.prep.map (fun p => { p with written := p.written + 1 }) }
  | .blu =>
    match s.blu.run with
    | some run =>
      match run.part with
      | some p =>
        let fillsLeft := p.created && decide (p.fills < (match s.stripAt p.strip with
          | some r => (s.fillWrites r.slot).length
          | none => 0))
        let p' := if fillsLeft then { p with fills := p.fills + 1 } else { p with writes := p.writes + 1 }
        { s with blu.run := some { run with part := some p' } }.updateStrip p.strip
          (fun r => r.written w.holes (w.spoilt || failed))
      | none => s
    | none => s
  | .tku | .smu | .opu => s

/-- A write that covers its whole ECC word (10 R167). -/
def WordWrite.whole (w : WordWrite) : Bool := w.bytes.all Option.isSome

/-- 10 R165, R167: what a completed write stores: the bytes, and the word's mark (cleared by a whole write and by a good merge, kept uncorrectable by a failed one). -/
def State.storeWord (s : State) (w : WordWrite) (failed : Bool) : State :=
  { s with
    mem := writeBytes s.mem w.addr w.bytes
    ecc := if failed then setMark s.ecc w.addr .uncorrectable else clearMark s.ecc w.addr }

/-- 10 R165 to R167: an access completes; `now` is what its ECC word gives when it is read. A write of a whole word reads nothing. -/
def State.completeAccess (s : State) (g : Grant) (now : EccOutcome) : State :=
  match g.access.write with
  | none =>
    let out := readOutcome (markOf s.ecc g.access.addr) now
    let failed := decide (out = .uncorrectable)
    let s := { s with ecc := markAfterRead s.ecc g.access.addr out }
    let s := if failed then s.noteEccError else s
    if g.live then s.noteRead g.access.who g.access.addr failed else s
  | some w =>
    let failed := !w.whole && decide (readOutcome (markOf s.ecc w.addr) now = .uncorrectable)
    let s := s.storeWord w failed
    let s := if failed then s.noteEccError else s
    if g.live then s.noteWrite g.access.who w failed else s

/-- 10 R169, 01 R14: the access in progress completes for no one. -/
def State.orphanAccess (s : State) : State :=
  { s with grant := s.grant.map (fun g => { g with live := false }) }

end Sys2Proof.Machine
end

