-- ==== Sys2Proof/Machine/Decision.lean ====
section
/-! DEFINITION. SWC's decision on a tracked frame (04 R64 to R78, 05 R90 to R97, 08 R147): the shared operations that SEARCH_COMPLETE and the steps after it are made of. A step that the table lists on its own is left due (notes/assumptions/10.md). -/
namespace Sys2Proof.Machine

/-! ### The tracking operation -/

/-- The operation's stage changes. -/
def State.setStage (s : State) (st : TrackStage) : State :=
  { s with tku.op := s.tku.op.map (fun op => { op with stage := st }) }

/-- 02 R23: SWC asks TKU for a selection. -/
def State.askSelection (s : State) (kind : SetKind) (slot : Fin 8) : State :=
  { s with tku.op := s.tku.op.map (fun op =>
      { op with selections := op.selections ++ [{ kind := kind, slot := slot }] }) }

/-- 03 R54: the held estimate is rebased by the tracked frame's result used. -/
def State.rebase (s : State) (r : FrameResult) : State :=
  { s with tku.held := (s.tku.held.1 - r.au, s.tku.held.2 - r.av) }

/-- 04 R61, R62, 05 R90: a slot is that of a key, or of the provisional reference. -/
def State.heldAsKey (s : State) (i : Fin 8) : Bool :=
  decide (s.swc.cal.provisional = some i) || s.swc.keys.any (fun r => decide (r.slot = some i))

/-- 01 R12: the tracking operation is complete and its slot moves: to KEY when the decision has made the frame a key or the provisional reference, and else to LAST with the frame's result (04 R76); any other LAST slot becomes FREE. -/
def State.closeFrame (s : State) (op : TrackOp) : State :=
  let t := if s.heldAsKey op.slot then s.moveToKey op.slot
    else { s.moveToLast op.slot with swc.lastResult := op.result }
  { t with tku.op := none }

/-- 04 R66, 02 R23: SWC's decision on the frame is made: the operation is complete, or its slot stays TRACKING until its selections are (notes/assumptions/9.md). -/
def State.finishFrame (s : State) : State :=
  match s.tku.op with
  | none => s
  | some op =>
    if op.selections = [] then s.closeFrame op
    else { s with tku.op := some { op with stage := .finished } }

/-! ### Positions -/

/-- The most recent key, the current reference (04 R64). -/
def State.lastKey (s : State) : KeyRecord := s.swc.keys.getLast?.getD default

/-- 04 R65: the along advance A of a result. -/
def State.advanceOf (s : State) (r : FrameResult) : Int := s.sgn * r.au

/-- 04 R64: the frame canvas position of a result against the current reference. -/
def State.positionOf (s : State) (r : FrameResult) : Int × Int :=
  (s.lastKey.u + 4 * s.sgn * r.au, s.lastKey.v + 4 * r.av)

/-! ### Taking a key (04 R71 to R73) -/

/-- 01 R10: a slot that is KEY, or that becomes KEY when the selections of its frame complete (notes/assumptions/9.md). -/
def State.slotPinned (s : State) (i : Fin 8) : Bool := decide (s.slotState i = .key) || s.heldAsKey i

/-- 01 R10: the slots that are KEY or become KEY. -/
def State.pinnedSlots (s : State) : List (Fin 8) := (List.finRange 8).filter s.slotPinned

/-- 04 R71: a seam job place and a slot that may become KEY without a fourth one. -/
def State.keyResources (s : State) : Bool :=
  decide (s.smu.queue.length < Config.seamPlaces ∧ s.pinnedSlots.length < Config.keySlots)

/-- 04 R72 step 1: a record joins the key table. -/
def State.addKey (s : State) (r : KeyRecord) : State :=
  { s with swc.keys := s.swc.keys ++ [r] }

/-- 04 R73: the KEY notice of a record with the frames-per-key count as it stands; then the count becomes 0 and the gyro-since-key mark is cleared (R72 step 7). -/
def State.notifyKey (s : State) (r : KeyRecord) : State :=
  { s.notify (.key s.swc.id r.index r.stored r.u r.v (placeU r.u) (placeV r.v) r.advance r.source
      r.flags r.inliers s.swc.framesPerKey) with
    swc.framesPerKey := 0
    swc.gyroSinceKey := false }

/-- 06 R107: with no job running, the ordinary job at the head of the queue begins; a closure job waits for CLOSURE_JOB_BEGIN (06 R119). -/
def State.startSeam (s : State) : State :=
  match s.smu.run, s.smu.queue with
  | none, .ordinary _ :: _ => { s with smu.run := some {} }
  | _, _ => s

/-- 06 R106: a job enters the seam job queue. -/
def State.queueSeam (s : State) (j : SeamJob) : State :=
  { s with smu.queue := s.smu.queue ++ [j] }.startSeam

/-- 05 R83: slow_frames is raised to fast_frames + 2 if it is below that value. -/
def SessionConfig.slowRule (c : SessionConfig) : SessionConfig :=
  { c with slowFrames := max c.slowFrames (c.fastFrames + 2) }

/-- 05 R87: a set of tunables replaces the values in force. -/
def SessionConfig.tune (c : SessionConfig) (t : Tunables) : SessionConfig :=
  { c with
    overlapPct := t.overlapPct.getD c.overlapPct
    radius := t.radius.getD c.radius
    lockCount := t.lockCount.getD c.lockCount
    coastLimit := t.coastLimit.getD c.coastLimit
    fastFrames := t.fastFrames.getD c.fastFrames
    slowFrames := t.slowFrames.getD c.slowFrames
    stallFrames := t.stallFrames.getD c.stallFrames }.slowRule

/-- 05 R87, 04 R72 step 6: the pending set is applied and becomes absent. -/
def State.applyPending (s : State) : State :=
  match s.swc.pendingTunables with
  | none => s
  | some t =>
    { s with swc.config := s.swc.config.map (fun c => c.tune t), swc.pendingTunables := none }

/-- 04 R63: the source of a key of a kind from a frame's class. -/
def KeyKind.source : KeyKind → ConfClass → KeySource
  | .normal, .good => .image
  | .normal, _ => .blend
  | .forced, .good => .image
  | .forced, _ => .blend
  | .bridged, _ => .bridged
  | .closure, _ => .closure

/-- 04 R61, R63, R64, R78: the record of the key that a tracked frame becomes. -/
def State.keyRecordOf (s : State) (slot : Fin 8) (position : Int × Int) (r : FrameResult)
    (kind : KeyKind) : KeyRecord :=
  let prev := s.lastKey
  let c := r.closure.getD default
  { index := s.swc.keys.length, stored := r.stored, slot := some slot
    u := position.1
    v := if kind = .closure then s.cfg.v0 + 4 * (c.est.getD (0, 0)).2 else position.2
    advance := position.1 - prev.u
    source := kind.source r.cls
    inliers := if kind = .closure then c.m else r.m
    exposure := ((s.igu.slots[slot].record).map FrameRecord.exposure).getD 0
    gain := none, seam := none, state := .pinned
    flags := { forced := decide (kind = .forced), weak := decide (r.lock ≠ .locked) } }

/-- 04 R75: the record of key 0. -/
def State.keyZeroRecord (s : State) (slot : Fin 8) (inliers : Nat) (lock : LockState) : KeyRecord :=
  { index := 0, stored := s.storedOf slot, slot := some slot, u := 0, v := s.cfg.v0, advance := 0
    source := .image, inliers := inliers
    exposure := ((s.igu.slots[slot].record).map FrameRecord.exposure).getD 0
    gain := some 256, seam := none, state := .pinned, flags := { weak := decide (lock ≠ .locked) } }

/-- 04 R75: key 0 is taken from a slot: its record, the leading selection and in a FULL_CIRCLE session the closure selection, the pending tunables, the notice and the counts. -/
def State.takeKeyZero (s : State) (slot : Fin 8) (inliers : Nat) (lock : LockState) : State :=
  let r := s.keyZeroRecord slot inliers lock
  let t := (s.addKey r).askSelection .leading slot
  let t := if s.cfg.extent = .fullCircle then t.askSelection .closure slot else t
  t.applyPending.notifyKey r

/-- 04 R72 steps 1, 5, 7 of a key k ≥ 1 (the steps that every such key makes, R77, R78). Step 2 is that of `closeFrame`, or of `takeTail`. -/
def State.recordKey (s : State) (r : KeyRecord) : State :=
  ((s.addKey r).queueSeam (.ordinary r.index)).notifyKey r

/-! ### Pace, stall and the closure window (05 R95 to R97) -/

/-- 05 R97, 08 R150: step 5's last part: in a FULL_CIRCLE session the closure window opens or has been passed; then the decision is made. -/
def State.windowStep (s : State) (op : TrackOp) (r : FrameResult) : State :=
  let u := op.position.1
  if s.cfg.extent = .fullCircle then
    if s.swc.state = .sweeping ∧ 16 * s.cfg.uc - 12 * s.cfg.wf ≤ u then
      ({ s with cvm.closureRun := 0 }.enterState .closing).finishFrame
    else if s.swc.state = .closing ∧ 16 * s.cfg.uc + 8 * s.cfg.wf ≤ u then
      ({ (s.endSweep .closureMissed) with cvm.closureResult := some .missed }.notify
        (.closureMissed s.swc.id r.stored)).finishFrame
    else s.finishFrame
  else s.finishFrame

/-- 05 R95: the stall count and the high-water mark; a count that reaches stall_frames leaves STALLED due. -/
def State.stallStep (s : State) (op : TrackOp) (r : FrameResult) : State :=
  let u := op.position.1
  let m := s.swc.highWater.getD u
  if m + 16 ≤ u then
    { s with swc.stallCount := 0, swc.highWater := some (max m u) }.windowStep op r
  else
    let t := { s with swc.stallCount := s.swc.stallCount + 1, swc.highWater := some (max m u) }
    if s.cfg.stallFrames ≤ s.swc.stallCount + 1 then t.setStage .stalledDue else t.windowStep op r

/-- 05 R96: the pace class of an along step v. -/
def paceClass (c : SessionConfig) (v : Int) : PaceClass :=
  if v * c.fastFrames > c.atAdv then .fast
  else if v * c.slowFrames < c.atAdv then .slow
  else .ok

/-- 05 R96: the pace state after a frame of a class, and whether its run reaches 3 (the run stays at 2 until PACE_CHANGE). -/
def Pace.classed (p : Pace) (c : PaceClass) : Pace × Bool :=
  if c = p.reported then ({ p with run := 0 }, false)
  else if p.candidate = some c then
    if 3 ≤ p.run + 1 then (p, true) else ({ p with run := p.run + 1 }, false)
  else ({ p with candidate := some c, run := 1 }, false)

/-- 04 R66 step 5: pace, then stall, then the closure window. -/
def State.paceStep (s : State) (op : TrackOp) (r : FrameResult) : State :=
  if r.lock = .lost then { s with swc.pace.run := 0 }.stallStep op r
  else
    let c := s.swc.pace.classed (paceClass s.cfg (s.sgn * r.su))
    if c.2 then s.setStage .paceDue else { s with swc.pace := c.1 }.stallStep op r

/-! ### The key decision (04 R66 to R72) -/

/-- 04 R71, R72, R74, R78: the tracked frame of the operation is taken as a key of a kind. In FINISHING steps 3, 4 and 6 are not made; a CLOSURE key makes none of them, clears the closure-pending mark and ends the sweep with CLOSED (08 R148). -/
def State.takeTracked (s : State) (op : TrackOp) (r : FrameResult) (kind : KeyKind) : State :=
  let rec' := s.keyRecordOf op.slot op.position r kind
  let t := s.recordKey rec'
  if kind = .closure then
    ({ t with swc.closurePending := false }.endSweep .closed).finishFrame
  else if s.storing then
    let t := ((t.askSelection .leading op.slot).rebase r).applyPending
    if rec'.index = 63 then t.setStage .keyLimitDue else t.paceStep op r
  else t.finishFrame

/-- 04 R71: the key is taken at once when its resources are available; otherwise the decision waits. -/
def State.takeOrWait (s : State) (op : TrackOp) (r : FrameResult) (kind : KeyKind) : State :=
  if s.keyResources then s.takeTracked op r kind else s.setStage (.keyWaiting kind)

/-- 04 R68, R69: the key tests: normal, then forced, then bridged. -/
def State.keyTests (s : State) (r : FrameResult) : Option KeyKind :=
  let a := s.advanceOf r
  let textured := decide (r.cls = .good ∨ r.cls = .weak)
  if textured && decide (r.lock ≠ .lost ∧ s.cfg.atAdv ≤ a) then some .normal
  else if textured && decide (r.inView < 3 ∧ s.cfg.atAdv / 2 ≤ a) then some .forced
  else if decide (r.lock = .lost ∧ s.cfg.atAdv ≤ a ∧ s.lastKey.source ≠ .bridged)
      && s.cfg.gyroUse && s.swc.gyroSinceKey then some .bridged
  else none

/-- 04 R66 steps 1 to 5. -/
def State.judgeKey (s : State) (op : TrackOp) (r : FrameResult) : State :=
  let u := op.position.1
  if s.swc.highWater.getD u - u > 4 * s.cfg.wf then (s.endSweep .reversed).finishFrame
  else if s.advanceOf r > s.cfg.amax then (s.endSweep .gap).finishFrame
  else
    match s.keyTests r with
    | none => s.paceStep op r
    | some kind =>
      if placeU u + s.cfg.wf > 128 * s.cfg.maxStrips then (s.endSweep .limit).finishFrame
      else s.takeOrWait op r kind

/-- 08 R147: the measured width and residual of a frame whose closure consensus qualifies. -/
def State.closureMeasure (s : State) (position : Int × Int) (r : FrameResult) : Option (Int × Int) :=
  match r.closure with
  | none => none
  | some c =>
    match c.est with
    | none => none
    | some (ecu, ecv) =>
      let um := placeU (position.1 - 4 * s.sgn * ecu)
      let vres := position.2 - (s.cfg.v0 + 4 * ecv)
      if c.cls = .good ∧ 100 * ((um - s.cfg.uc).natAbs : Int) ≤ 3 * s.cfg.uc
          ∧ vres.natAbs ≤ 2 * s.cfg.hc then some (um, vres)
      else none

/-- 08 R147: the closure run set. -/
def State.setClosureRun (s : State) (n : Nat) : State := { s with cvm.closureRun := n }

/-- 04 R66, 08 R147: in CLOSING the frame's closure consensus is offered first; a second qualifying measurement leaves CLOSURE_ACCEPTED due. -/
def State.keyDecision (s : State) (op : TrackOp) (r : FrameResult) : State :=
  if s.swc.state = .closing then
    if 0 ≤ s.advanceOf r then
      match s.closureMeasure op.position r with
      | some (um, vres) =>
        if s.cvm.closureRun = 1 then s.setStage (.closureDue um vres)
        else (s.setClosureRun 1).judgeKey op r
      | none => (s.setClosureRun 0).judgeKey op r
    else (s.setClosureRun 0).judgeKey op r
  else s.judgeKey op r

/-- 04 R66, R69: what is counted before the steps: the frames-per-key count and the gyro-since-key mark. -/
def State.countFrame (s : State) (r : FrameResult) : State :=
  { s with
    swc.framesPerKey := addHold Config.countTop s.swc.framesPerKey 1
    swc.gyroSinceKey := s.swc.gyroSinceKey || r.gyroMark }

/-- 05 R94, 04 R75: the first stored frame of a forced-direction session becomes key 0. -/
def State.takeFirstFrame (s : State) (op : TrackOp) (r : FrameResult) : State :=
  let t := (s.takeKeyZero op.slot r.m r.lock).rebase r
  { t with swc.highWater := some 0 }.finishFrame

/-! ### Calibration (05 R90) -/

/-- 05 R90: a frame becomes the provisional reference: a calibration selection is asked for, TKU rebases, count and run become 0; its slot becomes KEY when the selection completes. -/
def State.takeProvisional (s : State) (op : TrackOp) (r : FrameResult) : State :=
  let t := (s.askSelection .calibration op.slot).rebase r
  { t with swc.cal := { provisional := some op.slot, inliers := r.m } }

/-- 05 R90: a frame qualifies: GOOD, and its along estimate is at least 2 Wt away. -/
def State.calQualifies (s : State) (r : FrameResult) : Bool :=
  decide (r.cls = .good ∧ 2 * s.cfg.wt ≤ r.au.natAbs)

/-- 05 R90 to R93: the calibration step of a frame tracked against P, up to the steps the table lists on their own. -/
def State.judgeCalibration (s : State) (r : FrameResult) : State :=
  let count := s.swc.cal.count + 1
  let q := s.calQualifies r
  let sign := decide (0 < r.au)
  if q ∧ s.swc.cal.run = some sign then
    { s with swc.cal.count := count }.setStage .calDecisionDue
  else
    let t := { s with swc.cal.count := count, swc.cal.run := if q then some sign else none }
    if s.swc.state = .calibrating ∧ s.cfg.calFrames ≤ count then t.setStage .calTimeoutDue
    else if s.swc.state = .recalibrating ∧ 2 * s.cfg.calFrames ≤ count then t.setStage .noSweepDue
    else t.finishFrame

/-- 05 R90: the calibration procedure on a frame result. -/
def State.calibrate (s : State) (op : TrackOp) (r : FrameResult) : State :=
  let t := { s with swc.gyroSinceKey := s.swc.gyroSinceKey || r.gyroMark }
  match s.swc.cal.provisional with
  | none => (t.takeProvisional op r).finishFrame
  | some _ => t.judgeCalibration r

/-- SWC's decision on the frame result (04 R66, 05 R90, R94): a frame that completes once the session has entered FINISHING only becomes LAST. -/
def State.decideFrame (s : State) (r : FrameResult) : State :=
  match s.tku.op with
  | none => s
  | some op0 =>
    let op := { op0 with position := s.positionOf r }
    let s := { s with tku.op := some op }
    match s.swc.state with
    | .calibrating | .recalibrating => s.calibrate op r
    | .sweeping =>
      if s.swc.keys.isEmpty then (s.countFrame r).takeFirstFrame op r
      else (s.countFrame r).keyDecision op r
    | .closing => (s.countFrame r).keyDecision op r
    | .idle | .armed | .finishing | .done => s.finishFrame

end Sys2Proof.Machine
end

