-- ==== Sys2Proof/WellFormed.lean ====
section
/-! DEFINITION. Which commands can be given at all: a line with the header tag is a header line, the receiver's commands bring at least one byte, a read-back holds fields that the record's bytes can hold. A command that is not well formed spells nothing that can happen at a port. -/
namespace Sys2Proof

/-- The tag of a header line (01 R2). -/
def headerTag : Beat := 0xA5A5#16
/-- The tag of a picture line (01 R2). -/
def pictureTag : Beat := 0x5A5A#16

/-- Profile fields that the widths of 12 R184 can hold (a faulty record holds any bits of these widths). -/
def ProfileFields.fits (p : ProfileFields) : Bool :=
  decide (p.f16 < 2 ^ 24) && decide (-32768 ≤ p.cxOff ∧ p.cxOff < 32768)
    && decide (-32768 ≤ p.cyOff ∧ p.cyOff < 32768) && decide (p.textureMin < 65536)

/-- Profile fields within the ranges of 12 R184. -/
def ProfileFields.inRange (p : ProfileFields) : Bool :=
  decide (1 ≤ p.f16 ∧ p.f16 ≤ 1048575) && decide (-16384 ≤ p.cxOff ∧ p.cxOff ≤ 16384)
    && decide (-16384 ≤ p.cyOff ∧ p.cyOff ≤ 16384) && decide (p.textureMin ≤ 65535)

/-- A command that the ports, the link or the devices can bring. -/
def Instr.wellFormed : Instr → Bool
  | .pictureLine _ tag _ => decide (tag ≠ headerTag)
  | .requestReceived bytes => decide (bytes ≠ [])
  | .linkFrameDiscard bytes => decide (bytes ≠ [])
  | .burnComplete (.profile f _) => f.fits
  | .headerLine _ _ | .frameEnd | .frameAbort | .inputFault | .prepareComplete | .trackStart
  | .searchComplete | .calibrationDecision | .calibrationTimeout | .noSweep | .stalled
  | .trackLocked | .trackLost | .patchLost | .paceChange | .closureAccepted | .selectionComplete
  | .takeKey | .keyLimit | .tailKeyDecision | .finalKeyMark | .seamJobDone | .closureJobBegin
  | .commitEnter | .finalCommitEnter | .stripOpenRequest | .commitComplete
  | .memoryAccessComplete _ | .transferStart | .sopLineStart | .sopRdyChange _
  | .transferComplete | .cutTrailerDone | .linkTransactionStart
  | .messageSent | .linkTransactionEnd _ | .requestDispatch | .unknownType | .identGet | .statusGet
  | .faultClear | .sessionArm | .columnMapBuilt | .sessionStart | .sessionTune | .sessionStop
  | .sessionAbort | .sessionRelease | .sessionSummaryGet | .keyGet | .stripGet | .gyroPut
  | .outputResumeRetry | .outputResumeSkip | .profileRead | .profileStage | .profileBurn
  | .profileProtect | .profileLock | .profileReload | .burnComplete .asMeant
  | .burnComplete (.protection _ _) | .engineReset | .pinReset => true

end Sys2Proof
end

