-- ==== Sys2Proof/Machine/Ingest.lean ====
section
/-! DEFINITION. The commands of frame ingest (01): HEADER_LINE, PICTURE_LINE, FRAME_END, FRAME_ABORT, INPUT_FAULT, PREPARE_COMPLETE. -/
namespace Sys2Proof.Machine

/-- What a command of the block answers: the block never stops but in MEMORY_ACCESS_COMPLETE. -/
abbrev Answer := Host.Outcome State Fault Refusal

/-- 01 R7: the FILLING frame, if any, is ended without acceptance and counts as dropped with cause ABORTED. -/
def State.abortFilling (s : State) : State :=
  match s.firstIn .filling with
  | some i => (s.endUnaccepted i).countDropped
  | none => s

/-- 01 R4 step 6: the lowest-numbered FREE slot becomes FILLING; its record takes the gyro accumulator, which is left cleared (03 R49). -/
def State.startFrame (s : State) (i : Fin 8) (counter : BitVec 8) (exposure : Nat) : State :=
  { s.putSlot i .filling
      { counter := counter, exposure := exposure, snapshot := s.tku.gyro, stored := none,
        interval := none } with
    tku.gyro := {}
    igu.linesCounted := 0
    igu.misShaped := false }

/-- 01 R4 steps 2 to 6: a header line when no slot is FILLING. `beats` are the beats after the tag. -/
def State.frameStart (s : State) (beats : List Beat) : State :=
  if !s.storing then s
  else
    match beats with
    | b1 :: b2 :: _ :: _ =>
      if s.igu.lastCounter = some (b1.setWidth 8) then s
      else
        match s.firstIn .free with
        | some i => s.startFrame i (b1.setWidth 8) b2.toNat
        | none => s.countDropped
    | _ => s.countGeometry

/-- HEADER_LINE (01 R4): with FIP_FV low the line is ignored (R2); a FILLING frame is truncated first (R7). -/
def execHeaderLine (fv : Bool) (beats : List Beat) (s : State) : Answer :=
  let s := { s with pins.fipFv := fv }
  if fv then .next (s.abortFilling.frameStart beats).settle else .next s

/-- Eight-byte pieces of a row of samples. -/
def chunks8 : Nat → List Byte → List (List Byte)
  | 0, _ => []
  | _ + 1, [] => []
  | n + 1, l => l.take 8 :: chunks8 n (l.drop 8)

/-- The whole-word writes that store a row of samples from address `a` on (10 R162, R167). DESIGN CHOICE (notes/assumptions/40.md): in the last word of a row that ends inside it, as a line shorter than Wf can, the rest is a free value. -/
def rowWrites (a : Nat) (row : List Byte) : List WordWrite :=
  let pieces := chunks8 row.length row
  ((List.range pieces.length).zip pieces).map (fun e =>
    let at0 := a + 8 * e.1
    wholeWord at0 (e.2 ++ ((List.range 8).drop e.2.length).map (fun k => Config.openByte (at0 + k))))

/-- The high bytes of the beats whose column has the given parity (01 1.1: Cb on even columns, Cr on odd ones). -/
def chromaBytes (parity : Nat) (beats : List Beat) : List Byte :=
  ((List.range beats.length).zip beats).filterMap (fun e : Nat × Beat =>
    if e.1 % 2 = parity then some ((e.2 >>> (8 : Nat)).setWidth 8) else none)

/-- 01 R5: the writes of picture line r of a frame: luma, and on even lines chroma, of the first Wf beats. -/
def lineWrites (slot : Fin 8) (wf r : Nat) (beats : List Beat) : List WordWrite :=
  let used := beats.take wf
  rowWrites (rawLumaAddr slot 0 r) (used.map (fun b => b.setWidth 8))
    ++ (if r % 2 = 0 then
      rowWrites (rawCbAddr slot 0 (r / 2)) (chromaBytes 0 used)
        ++ rowWrites (rawCrAddr slot 0 (r / 2)) (chromaBytes 1 used)
    else [])

/-- 10 R163: a line's writes take a line buffer; a line with nothing to write takes none. -/
def addLine (slot : Fin 8) (writes : List WordWrite) (l : List LineBuffer) : List LineBuffer :=
  if writes = [] then l else l ++ [{ slot := slot, writes := writes }]

/-- 01 R5: a line of a FILLING frame is counted (DESIGN CHOICE, notes/assumptions/39.md: a malformed line takes a row number like a picture line), stored when it is a picture line of rows 0..Hf-1, and marks the frame as mis-shaped when it is malformed or not Wf long. -/
def State.takeLine (s : State) (i : Fin 8) (tag : Beat) (beats : List Beat) : State :=
  let r := s.igu.linesCounted
  let stored := decide (tag = pictureTag ∧ r < s.cfg.hf)
  { s with
    igu.linesCounted := r + 1
    igu.misShaped := s.igu.misShaped || decide (tag ≠ pictureTag ∨ beats.length ≠ s.cfg.wf)
    igu.lineBuffers := if stored then addLine i (lineWrites i s.cfg.wf r beats) s.igu.lineBuffers
      else s.igu.lineBuffers }

/-- PICTURE_LINE (01 R2, R5): ignored with FIP_FV low or with no FILLING slot; a picture line that finds both line buffers still to be written overruns (10 R163). -/
def execPictureLine (fv : Bool) (tag : Beat) (beats : List Beat) (s : State) : Answer :=
  let s := { s with pins.fipFv := fv }
  if !fv then .next s
  else
    match s.firstIn .filling with
    | none => .next s
    | some i =>
      if tag = pictureTag ∧ 2 ≤ s.igu.lineBuffers.length then .next s.abortFilling.settle
      else .next (s.takeLine i tag beats).settle

/-- 01 R11: a slot becomes PREPARING and its prepare pass begins. -/
def State.startPrepare (s : State) (i : Fin 8) : State :=
  { s.setSlotState i .preparing with igu.prep := some { slot := i } }

/-- 01 R6: the interval of a frame whose counter is `c`. -/
def intervalOf (last : Option (BitVec 8)) (c : BitVec 8) : Nat :=
  match last with
  | some l => (c - l).toNat
  | none => 1

/-- 01 R6: the frame FILLING slot i is accepted. -/
def State.acceptFrame (s : State) (i : Fin 8) (r : FrameRecord) : State :=
  let t := { s.putSlot i .filledWait
      { r with stored := some s.igu.nextStored
               interval := some (intervalOf s.igu.lastCounter r.counter) } with
    igu.nextStored := s.igu.nextStored + 1
    igu.lastCounter := some r.counter
    igu.geoRun := 0 }
  if s.igu.prep.isNone then t.startPrepare i else t

/-- 01 R6: the FILLING frame is rejected at frame end with cause GEOMETRY. -/
def State.badShape (s : State) : Bool :=
  s.igu.misShaped || decide (s.igu.linesCounted ≠ s.cfg.hf)

/-- FRAME_END (01 R6): the FILLING frame is rejected as GEOMETRY or accepted; with no slot FILLING the fall of FIP_FV has no effect. -/
def execFrameEnd (s : State) : Answer :=
  let s := { s with pins.fipFv := false }
  match s.firstIn .filling with
  | none => .next s
  | some i =>
    if s.badShape then .next (s.endUnaccepted i).countGeometry.settle
    else
      match s.igu.slots[i].record with
      | some r => .next (s.acceptFrame i r).settle
      | none => .next s

/-- FRAME_ABORT (01 R7): FIP_ABT ends a FILLING frame as ABORTED; with no slot FILLING it has no effect. -/
def execFrameAbort (s : State) : Answer := .next s.abortFilling.settle

/-- INPUT_FAULT (01 R9): SWC takes IGU's report: in a storing state with the closure-pending mark clear the sweep ends with INPUT_FAULT; otherwise the report has no effect. -/
def execInputFault (s : State) : Answer :=
  if s.igu.faultReport then
    let t := { s with igu.faultReport := false }
    if s.swc.closurePending then .next t else .next (t.endSweep .inputFault).settle
  else .next s

/-- PREPARE_COMPLETE (01 R11, R13, R20): when the pass has made all its accesses, the slot becomes QUEUED in a storing state and FREE otherwise, and the FILLED-WAIT slot with the lowest stored frame number starts its pass. -/
def execPrepareComplete (s : State) : Answer :=
  match s.igu.prep with
  | none => .next s
  | some p =>
    if (nextRead (prepareReads (s.prepView p)) p.rd).isSome
        || decide (p.written < (prepareWrites (s.prepView p) s.cfg.wt s.cfg.ht).length) then .next s
    else
      let t := { s with igu.prep := none }
      let t := if s.storing then t.setSlotState p.slot .queued else t.freeSlot p.slot
      match t.oldestIn .filledWait with
      | some i => .next (t.startPrepare i).settle
      | none => .next t.settle

end Sys2Proof.Machine
end

