-- ==== Sys2Proof/Machine/Tracking.lean ====
section
/-! DEFINITION. The commands of tracking (02, 03): TRACK_START, SEARCH_COMPLETE, PATCH_LOST, TRACK_LOCKED, TRACK_LOST, SELECTION_COMPLETE. -/
namespace Sys2Proof.Machine

/-! ### Prediction (03 R50, R53; 08 R146) -/

/-- 03 R50: a snapshot in thumbnail sixteenths. -/
def gyroStep (g : Gyro) (f16 : Nat) : Int × Int :=
  (roundDiv (g.yaw * f16) 4000000, -(roundDiv (g.pitch * f16) 4000000))

/-- 03 R53: the prediction of the main set for a frame record. -/
def State.predict (s : State) (r : FrameRecord) : Int × Int :=
  if s.cfg.gyroUse && r.snapshot.received then
    let g := gyroStep r.snapshot s.cfg.f16
    (s.tku.held.1 + g.1, s.tku.held.2 + g.2)
  else
    let i : Int := (r.interval.getD 1 : Nat)
    (s.tku.held.1 + s.tku.step.1 * i, s.tku.held.2 + s.tku.step.2 * i)

/-- 08 R146: the closure prediction from the main prediction. -/
def State.closurePredict (s : State) (p : Int × Int) : Int × Int :=
  let r := s.lastKey
  (roundDiv (s.sgn * (r.u + 4 * s.sgn * p.1 - 16 * s.cfg.uc)) 4,
   roundDiv (r.v + 4 * p.2 - s.cfg.v0) 4)

/-- TRACK_START's effect (01 R11, 02 R30, 03 R53): slot i becomes TRACKING, the predictions are formed and the radius is fixed. -/
def State.beginTracking (s : State) (i : Fin 8) : State :=
  let p := s.predict (s.igu.slots[i].record.getD default)
  { s.setSlotState i .tracking with
    tku.op := some
      { slot := i, pu := p.1, pv := p.2
        cpred := if s.swc.state = .closing then some (s.closurePredict p) else none
        radius := s.radiusInForce, rd := {}, stage := .searching, main := default, closure := none
        used := p, source := .predict, result := none, position := (0, 0), selections := [] } }

/-- TRACK_START (01 R11, 03 R53): TKU, with no tracking operation in progress, takes the QUEUED slot with the lowest stored frame number. -/
def execTrackStart (s : State) : Answer :=
  match s.tku.op, s.oldestIn .queued with
  | none, some i => .next (s.beginTracking i).settle
  | _, _ => .next s

/-! ### The stages of R47 -/

/-- 03 R58: the TRACK notice of a change of lock state; the radius is that of the state after. -/
def State.notifyTrack (s : State) (op : TrackOp) (before : LockState) : State :=
  s.notify (.track s.swc.id (s.storedOf op.slot) before s.tku.lock.state op.main.cls op.main.m
    op.main.n s.radiusInForce)

/-- 03 R47 stages 6 and 7: the in-view ACTIVE count and the frame result, handed to SWC, whose decision follows. -/
def State.frameResult (s : State) (op : TrackOp) : State :=
  let rec' := s.igu.slots[op.slot].record.getD default
  let r : FrameResult :=
    { stored := s.storedOf op.slot, interval := rec'.interval.getD 1, cls := op.main.cls
      source := op.source, au := op.used.1, av := op.used.2, m := op.main.m, n := op.main.n
      memory := op.main.memory, inView := activeCount s.tku.mainSet, lock := s.tku.lock.state
      su := s.tku.step.1, sv := s.tku.step.2, gyroMark := rec'.snapshot.received
      closure := op.closure }
  { s with tku.op := some { op with result := some r, stage := .finished } }.decideFrame r

/-- 03 R52, R51: the velocity step of a GOOD or WEAK frame, then the held estimate. -/
def State.motionStep (s : State) (op : TrackOp) : State :=
  let i : Int := (((s.igu.slots[op.slot].record).bind FrameRecord.interval).getD 1 : Nat)
  let step := if op.main.cls = .none then s.tku.step
    else (roundDiv (op.used.1 - s.tku.held.1) i, roundDiv (op.used.2 - s.tku.held.2) i)
  { s with tku.step := step, tku.held := op.used }

/-- The lock detector takes a state and both runs become what is given. -/
def State.setLock (s : State) (l : Lock) : State := { s with tku.lock := l }

/-- 03 R56: the lock update of a frame, up to the steps TRACK_LOCKED and TRACK_LOST of the table, which it leaves due. -/
def State.lockStep (s : State) (op : TrackOp) : State :=
  let l := s.tku.lock
  let s := { s with tku.op := some op }
  if op.main.cls = .good then
    match l.state with
    | .acquiring | .lost =>
      let t := s.setLock { l with goodRun := l.goodRun + 1 }
      if s.cfg.lockCount ≤ l.goodRun + 1 then t.setStage .lockedDue else t.frameResult op
    | .locked => s.frameResult op
    | .coasting =>
      ((s.setLock { l with state := .locked, missRun := 0 }).notifyTrack op .coasting).frameResult op
  else
    match l.state with
    | .acquiring | .lost => (s.setLock { l with goodRun := 0 }).frameResult op
    | .locked =>
      ((s.setLock { l with state := .coasting, missRun := 1 }).notifyTrack op .locked).frameResult op
    | .coasting =>
      let t := s.setLock { l with missRun := l.missRun + 1 }
      if s.cfg.coastLimit ≤ l.missRun + 1 then t.setStage .lostDue else t.frameResult op

/-- 03 R47 stages 4 and 5. -/
def State.afterMisses (s : State) (op : TrackOp) : State := (s.motionStep op).lockStep op

/-- 03 R47 stages 1 to 3 of a search that has made its reads: the consensus of each set, the result used, and the miss counting unless the frame is a memory-error frame (02 R37). -/
def State.formConsensus (s : State) (op : TrackOp) : State × TrackOp × List (Bool × Nat) :=
  if op.rd.failed = [] then
    let mainReport := (s.searchView op false).report s.tku.mainSet
    let main := consensusOf mainReport
    let u := resultUsed main op.pu op.pv
    let mainAfter := missCount s.tku.mainSet mainReport
    let op' := { op with main := main, used := u.1, source := u.2 }
    match op.cpred with
    | none =>
      ({ s with tku.mainSet := mainAfter.1 }, op', mainAfter.2.map (fun i => (false, i)))
    | some _ =>
      let closureReport := (s.searchView op true).report s.tku.closureSet
      let closureAfter := missCount s.tku.closureSet closureReport
      ({ s with tku.mainSet := mainAfter.1, tku.closureSet := closureAfter.1 },
        { op' with closure := some (consensusOf closureReport) },
        mainAfter.2.map (fun i => (false, i)) ++ closureAfter.2.map (fun i => (true, i)))
  else
    (s, { op with main := memoryConsensus, closure := op.cpred.map (fun _ => memoryConsensus)
                  used := (op.pu, op.pv), source := .predict }, [])

/-- SEARCH_COMPLETE (03 R47, 04 R66, 05 R90): when the search has made its reads, TKU finishes its part and SWC takes its decision, up to the first step that the table lists on its own. -/
def execSearchComplete (s : State) : Answer :=
  match s.tku.op with
  | none => .next s
  | some op =>
    if op.stage = .searching ∧ s.nextSearchRead = none then
      let (t, op', losses) := s.formConsensus op
      if losses = [] then .next (t.afterMisses op').settle
      else .next ({ t with tku.op := some { op' with stage := .patchesDue losses } }).settle
    else .next s

/-- 02 R38: a record becomes LOST with its count held at 2. -/
def Patch.lose (p : Patch) : Patch := { p with state := .lost, miss := 2 }

/-- 02 R38: record `id` of the main set (false) or of the closure set (true) becomes LOST. -/
def State.losePatch (s : State) (closure : Bool) (id : Nat) : State :=
  if closure then { s with tku.closureSet := s.tku.closureSet.modify id Patch.lose }
  else { s with tku.mainSet := s.tku.mainSet.modify id Patch.lose }

/-- PATCH_LOST (02 R38): the first patch whose miss count has reached 3 in this frame becomes LOST; after the last one the frame goes on at stage 4 of R47. -/
def execPatchLost (s : State) : Answer :=
  match s.tku.op with
  | none => .next s
  | some op =>
    match op.stage with
    | .patchesDue [] => .next (s.afterMisses op).settle
    | .patchesDue ((set, id) :: rest) =>
      let t := s.losePatch set id
      if rest = [] then .next (t.afterMisses op).settle
      else .next { t with tku.op := some { op with stage := .patchesDue rest } }
    | _ => .next s

/-- TRACK_LOCKED (03 R56, R58): the good run has reached lock_count: the detector becomes LOCKED with both runs 0, a TRACK notice is queued, and the frame goes on at stage 6. -/
def execTrackLocked (s : State) : Answer :=
  match s.tku.op with
  | none => .next s
  | some op =>
    if op.stage = .lockedDue then
      .next (((s.setLock { state := .locked }).notifyTrack op s.tku.lock.state).frameResult op).settle
    else .next s

/-- TRACK_LOST (03 R56, R58): the miss run has reached coast_limit: the detector becomes LOST with both runs 0, a TRACK notice is queued, and the frame goes on at stage 6. -/
def execTrackLost (s : State) : Answer :=
  match s.tku.op with
  | none => .next s
  | some op =>
    if op.stage = .lostDue then
      .next (((s.setLock { state := .lost }).notifyTrack op s.tku.lock.state).frameResult op).settle
    else .next s

/-- 02 R23: a selected set replaces the set of its kind. -/
def State.replaceSet (s : State) (kind : SetKind) (set : List Patch) : State :=
  match kind with
  | .calibration | .leading => { s with tku.mainSet := set }
  | .closure => { s with tku.closureSet := set }

/-- SELECTION_COMPLETE (02 R23 to R28): when the selection in hand has made its reads, its set takes effect; with no further selection and SWC's decision made, the tracking operation is complete and its slot moves (01 R12). -/
def execSelectionComplete (s : State) : Answer :=
  match s.tku.op with
  | none => .next s
  | some op =>
    match op.selections with
    | [] => .next s
    | sel :: rest =>
      if op.stage ≠ .searching ∧ nextRead (s.selectionView sel).run.words sel.rd = none then
        let t := s.replaceSet sel.kind (s.selectionView sel).run.set
        let op' := { op with selections := rest }
        if rest = [] ∧ op.stage = .finished then .next (t.closeFrame op').settle
        else .next { t with tku.op := some op' }.settle
      else .next s

end Sys2Proof.Machine
end

