-- ==== Sys2Proof/Machine/Keys.lean ====
section
/-! DEFINITION. The commands of SWC's decision that the table lists on their own (04, 05, 08): CALIBRATION_DECISION, CALIBRATION_TIMEOUT, NO_SWEEP, STALLED, PACE_CHANGE, CLOSURE_ACCEPTED, TAKE_KEY, KEY_LIMIT, TAIL_KEY_DECISION, FINAL_KEY_MARK. A step that is due while the session has left the storing states only lets the frame complete (05 R98). -/
namespace Sys2Proof.Machine

/-! ### Calibration (05 R91 to R93) -/

/-- 05 R91: the high-water mark is set from the deciding frame, the calibration is over and the session is SWEEPING. -/
def State.beginSweep (s : State) (au : Int) : State :=
  { s with swc.highWater := some (4 * s.sgn * au), swc.cal := {} }.enterState .sweeping

/-- 05 R91: the direction is settled by the sign of the deciding frame, P becomes key 0 and the sweep begins; the deciding frame's slot becomes LAST when the selections from key 0 complete (02 R23). -/
def State.decideDirection (s : State) (r : FrameResult) (p : Fin 8) : State :=
  let s := { s with swc.decided := if 0 < r.au then some .right else some .left }
  (s.takeKeyZero p s.swc.cal.inliers r.lock).beginSweep r.au

/-- CALIBRATION_DECISION (05 R91). -/
def execCalibrationDecision (s : State) : Answer :=
  match s.tku.op with
  | none => .next s
  | some op =>
    match op.stage, op.result, s.swc.cal.provisional with
    | .calDecisionDue, some r, some p =>
      if s.storing then .next (s.decideDirection r p).finishFrame.settle
      else .next s.finishFrame.settle
    | .calDecisionDue, _, _ => .next s.finishFrame.settle
    | _, _, _ => .next s

/-- 05 R92: the frame becomes the new provisional reference and the session is RECALIBRATING. -/
def State.recalibrate (s : State) (op : TrackOp) (r : FrameResult) : State :=
  let s := match s.swc.cal.provisional with
    | some p => s.freeSlot p
    | none => s
  (s.takeProvisional op r).enterState .recalibrating

/-- CALIBRATION_TIMEOUT (05 R92). -/
def execCalibrationTimeout (s : State) : Answer :=
  match s.tku.op with
  | none => .next s
  | some op =>
    match op.stage, op.result with
    | .calTimeoutDue, some r =>
      if s.storing then .next (s.recalibrate op r).finishFrame.settle
      else .next s.finishFrame.settle
    | .calTimeoutDue, none => .next s.finishFrame.settle
    | _, _ => .next s

/-- An end cause that was due is raised and the frame's decision completes. -/
def State.endDue (s : State) (due : TrackStage) (cause : EndCause) : State :=
  match s.tku.op with
  | none => s
  | some op => if op.stage = due then (s.endSweep cause).finishFrame.settle else s

/-- NO_SWEEP (05 R93): the calibration count has reached 2 cal_frames in RECALIBRATING. -/
def execNoSweep (s : State) : Answer := .next (s.endDue .noSweepDue .noSweep)

/-- STALLED (05 R95): the stall count has reached stall_frames; a key taken in the same decision stands. -/
def execStalled (s : State) : Answer := .next (s.endDue .stalledDue .stalled)

/-- KEY_LIMIT (04 R74): key 63 has been taken under the key tests. -/
def execKeyLimit (s : State) : Answer := .next (s.endDue .keyLimitDue .keyLimit)

/-! ### Pace (05 R96) -/

/-- 05 R96: the candidate becomes the reported class and a PACE notice is queued. -/
def State.changePace (s : State) (r : FrameResult) : State :=
  let after := s.swc.pace.candidate.getD s.swc.pace.reported
  { s.notify (.pace s.swc.id r.stored s.swc.pace.reported after (s.sgn * r.su)) with
    swc.pace := { s.swc.pace with reported := after, run := 0 } }

/-- PACE_CHANGE (05 R96): the change has held for three classed frames; step 5 goes on with the stall test. -/
def execPaceChange (s : State) : Answer :=
  match s.tku.op with
  | none => .next s
  | some op =>
    match op.stage, op.result with
    | .paceDue, some r =>
      if s.storing then .next ((s.changePace r).stallStep op r).settle
      else .next s.finishFrame.settle
    | .paceDue, none => .next s.finishFrame.settle
    | _, _ => .next s

/-! ### Closure (08 R148, R149) -/

/-- 08 R149: the strip that holds the last column of a canvas of width `um`. -/
def lastStripIndex (um : Int) : Nat := ((um - 1) / 128).toNat

/-- 08 R149: what acceptance changes in a strip record. `sent` says that the strip has already been SENDING. -/
def Strip.closedAt (r : Strip) (um : Int) (sent : Bool) : Strip :=
  let r := if um ≤ (r.uStart : Int) ∧ ¬ r.isHeld then { r with wrap := true } else r
  if r.index = lastStripIndex um then
    match r.state with
    | .opened => { r with width := (um - (r.uStart : Int)).toNat, last := true }
    | .final => if sent then r else { r with last := true, wrap := true }
    | .sending => r
  else r

/-- 09 R153: OPU's transfer record counts strip j, which so has already been SENDING; while OPU is CUTTING the record is that of a strip already cleared. -/
def State.hasBeenSending (s : State) (j : Nat) : Bool :=
  match s.opu.state, s.opu.xfer with
  | .cutting, _ | _, none => false
  | _, some x => decide (x.strip = j)

/-- 08 R149: the changes to the strip table at acceptance. -/
def State.closeTable (s : State) (um : Int) : State :=
  { s with cvm.strips := s.cvm.strips.map (fun r => r.closedAt um (s.hasBeenSending r.index)) }

/-- 08 R148: acceptance fixes Um, Vres and the result, queues the CLOSURE notice, changes the strip table and sets the closure-pending mark. -/
def State.acceptClosure (s : State) (r : FrameResult) (um vres : Int) : State :=
  let t := { s with cvm.um := some um, cvm.vres := some vres, cvm.closureResult := some .accepted }
  { (t.notify (.closureAccepted s.swc.id r.stored um vres (r.closure.getD default).m)).closeTable um with
    swc.closurePending := true }

/-- CLOSURE_ACCEPTED (08 R148, 04 R78): the frame becomes the CLOSURE key, which may wait. -/
def execClosureAccepted (s : State) : Answer :=
  match s.tku.op with
  | none => .next s
  | some op =>
    match op.stage, op.result with
    | .closureDue um vres, some r =>
      if s.storing then .next ((s.acceptClosure r um vres).takeOrWait op r .closure).settle
      else .next s.finishFrame.settle
    | .closureDue _ _, none => .next s.finishFrame.settle
    | _, _ => .next s

/-! ### Waiting keys and the tail key (04 R71, R76, R77) -/

/-- 04 R77: the record of the TAIL key made from the LAST slot and its result. -/
def State.tailRecord (s : State) (slot : Fin 8) (r : FrameResult) : KeyRecord :=
  { s.keyRecordOf slot (s.positionOf r) r .normal with source := .tail }

/-- 04 R77: the LAST slot is taken as the TAIL key. -/
def State.takeTail (s : State) (slot : Fin 8) (r : FrameResult) : State :=
  { (s.recordKey (s.tailRecord slot r)).moveToKey slot with swc.tail := .made }

/-- TAKE_KEY (04 R71, R72, R77): a waiting decision, or a waiting tail key, finds a seam job place and a KEY slot. -/
def execTakeKey (s : State) : Answer :=
  if s.keyResources then
    match s.tku.op with
    | some op =>
      match op.stage, op.result with
      | .keyWaiting kind, some r => .next (s.takeTracked op r kind).settle
      | _, _ => .next s
    | none =>
      match s.swc.tail, s.firstIn .last, s.swc.lastResult with
      | .waiting, some slot, some r => .next (s.takeTail slot r).settle
      | _, _, _ => .next s
  else .next s

/-- 04 R76: a LAST frame becomes a TAIL key. -/
def State.tailQualifies (s : State) (r : FrameResult) : Bool :=
  decide ((r.cls = .good ∨ r.cls = .weak) ∧ s.cfg.atAdv / 4 ≤ s.advanceOf r ∧ s.advanceOf r ≤ s.cfg.amax
    ∧ placeU (s.positionOf r).1 + s.cfg.wf ≤ 128 * s.cfg.maxStrips)

/-- 04 R76, R77: the tail-key decision: a qualifying LAST frame becomes the TAIL key or waits to become it; otherwise the LAST slot becomes FREE. -/
def State.decideTail (s : State) : State :=
  match s.swc.keys, s.firstIn .last, s.swc.lastResult with
  | _ :: _, some slot, some r =>
    if s.tailQualifies r then
      if s.keyResources then s.takeTail slot r else { s with swc.tail := .waiting }
    else s.dropLast
  | _, _, _ => s.dropLast

/-- TAIL_KEY_DECISION (04 R76): made once, in FINISHING with a cause that calls for it, with no slot TRACKING and no decision waiting. -/
def execTailKeyDecision (s : State) : Answer :=
  if s.swc.state = .finishing ∧ s.tailCalled ∧ s.tku.op.isNone ∧ s.swc.tail = .notMade then
    .next s.decideTail.settle
  else .next s

/-- 05 R100 item 5: the final key is fixed: tracking and waiting keys are done, key 0 exists, and the tail-key decision is made when the cause calls for it. -/
def State.finalKeyFixed (s : State) : Bool :=
  decide (s.swc.state = .finishing ∧ s.tku.op.isNone ∧ s.swc.keys ≠ [] ∧ s.blu.mark = none
    ∧ (s.tailCalled = true → s.swc.tail = .made))

/-- FINAL_KEY_MARK (05 R100, 07 R126): SWC marks the final key to BLU. -/
def execFinalKeyMark (s : State) : Answer :=
  if s.finalKeyFixed then .next { s with blu.mark := some (s.swc.keys.length - 1) }.settle
  else .next s

end Sys2Proof.Machine
end

