-- ==== Sys2Proof/Machine/Canvas.lean ====
section
/-! DEFINITION. The canvas manager's operations (08): where a strip lies, opening, waits, discards, finalisation. -/
namespace Sys2Proof.Machine

/-! ### Opening (08 R138 to R142) -/

/-- 08 R138: the slot of strip j in the session. -/
def State.slotOfStrip (s : State) (j : Nat) : StripSlot :=
  match s.cfg.extent with
  | .partialSweep => .ring (j % Config.ringSlots)
  | .fullCircle =>
    if j < s.cfg.heldStrips then .held j else .ring ((j - s.cfg.heldStrips) % Config.ringSlots)

/-- 08 R139, R149: the record of a strip at its opening. After an accepted closure the strip that holds the last column takes its width and LAST, and a strip at or beyond Um takes WRAP. -/
def State.freshStrip (s : State) (j : Nat) : Strip :=
  let r : Strip := { index := j, slot := s.slotOfStrip j, width := 128, state := .opened, holes := 0
                     damaged := false, wrap := false, last := false, error := false }
  match s.cvm.um with
  | none => r
  | some um =>
    { r with
      width := if j = lastStripIndex um then (um - 128 * (j : Int)).toNat else 128
      last := decide (j = lastStripIndex um)
      wrap := decide (um ≤ 128 * (j : Int)) }

/-- A record put into the table in index order. -/
def insertStrip (r : Strip) : List Strip → List Strip
  | [] => [r]
  | x :: xs => if r.index < x.index then r :: x :: xs else x :: insertStrip r xs

/-- 08 R139: the record of strip j is created, OPEN. -/
def State.createStrip (s : State) (j : Nat) : State :=
  { s with cvm.strips := insertStrip (s.freshStrip j) s.cvm.strips }

/-- 08 R140: the strip that occupies the slot of strip j. -/
def State.occupantOf (s : State) (j : Nat) : Option Strip :=
  s.cvm.strips.find? (fun r => decide (r.slot = s.slotOfStrip j))

/-- 08 R141: a CANVAS notice. -/
def State.notifyCanvas (s : State) (w : CanvasWait) (atEnd : Bool) : State :=
  s.notify (.canvas s.swc.id w.strip w.occupant w.occupantState s.cfg.policy atEnd)

/-- 09 R157: a STRIP notice for a strip record. -/
def State.notifyStrip (s : State) (id : Nat) (r : Strip) (status : StripStatus) (number : Nat) : State :=
  s.notify (.strip id r.index status r.holes r.damaged number)

/-- 09 R153: the transfer number returns to 0 and the transfer record is emptied when the strip it counts leaves. -/
def State.forgetTransfer (s : State) (j : Nat) : State :=
  if s.hasBeenSending j then s.clearTransfer else s

/-- 08 R142: a FINAL occupant with its mark clear is discarded. -/
def State.discardStrip (s : State) (r : Strip) : State :=
  (((s.removeStrip r.index).countDiscarded).notifyStrip s.swc.id r .discarded 0).forgetTransfer r.index

/-- 07 R132: the part of a commit that starts at column `u`: its strip and its end, at the strip's end, at Um, or at the end of the span. -/
def CommitRun.nextPart (run : CommitRun) (created : Bool) : StripPart :=
  let m := mappedColumn run.wrap run.cursor
  let j := m / 128
  let stripEnd := run.cursor + (128 * (j + 1) - m)
  let wrapEnd := match run.wrap with
    | some um => if run.cursor < um then min stripEnd um else stripEnd
    | none => stripEnd
  { strip := j.toNat, lo := run.cursor, hi := min wrapEnd run.spanHi, created := created }

/-- 07 R132: BLU writes the part of the running commit that lies in the strip just opened. -/
def State.openPart (s : State) (created : Bool) : State :=
  { s with
    blu.state := .writing
    blu.run := s.blu.run.map (fun run =>
      { run with part := some (run.nextPart created), cursor := (run.nextPart created).hi }) }

/-- 08 R141: an open request is answered WAIT: BLU waits, the wait is recorded and its CANVAS notice queued. -/
def State.beginWait (s : State) (j : Nat) (occ : Strip) : State :=
  let w : CanvasWait := { strip := j, occupant := occ.index, occupantState := occ.state }
  { s with blu.state := .waiting, cvm.wait := some w }.notifyCanvas w false

/-- 08 R141: strip `left` has left the table: a wait on it ends, the strip waited for is created OPEN, BLU writes on, and the end is noticed. -/
def State.endWait (s : State) (left : Nat) : State :=
  match s.cvm.wait with
  | none => s
  | some w =>
    if w.occupant = left then
      ({ (s.createStrip w.strip) with cvm.wait := none }.openPart true).notifyCanvas w true
    else s

/-- 08 R140 to R142: CVM's answer to the open request for strip j. -/
def State.openStrip (s : State) (j : Nat) : State :=
  match s.stripAt j with
  | some r => if r.state = .opened then s.openPart false else s
  | none =>
    match s.occupantOf j with
    | none => (s.createStrip j).openPart true
    | some occ =>
      if s.cfg.policy = .overwrite ∧ occ.state = .final ∧ occ.error = false then
        ((s.discardStrip occ).createStrip j).openPart true
      else s.beginWait j occ

/-! ### Finalisation (08 R143, R144) -/

/-- 08 R143, R144: the OPEN strips that satisfy `p` become FINAL and join the output queue in index order. -/
def State.finalise (s : State) (p : Strip → Bool) : State :=
  let go := s.cvm.strips.filter (fun r => decide (r.state = .opened) && p r)
  { s with
    cvm.strips := s.cvm.strips.map (fun r =>
      if r.state = .opened ∧ p r then { r with state := .final } else r)
    cvm.outQueue := s.cvm.outQueue ++ go.map Strip.index }

/-- 08 R143: the OPEN non-held strips wholly below the frontier. -/
def State.finaliseBelow (s : State) : State :=
  s.finalise (fun r => !r.isHeld && decide ((r.uStart : Int) + r.width ≤ s.blu.frontier))

/-- 08 R144 step 1: without an accepted closure the canvas ends at the frontier; the strip that holds its last column takes its width and LAST. -/
def State.markLastStrip (s : State) : State :=
  match s.cvm.um with
  | some _ => s
  | none =>
    s.updateStrip ((s.blu.frontier - 1) / 128).toNat (fun r =>
      { r with width := (s.blu.frontier - (r.uStart : Int)).toNat, last := true })

/-- 08 R143, R144: after the session's last commit: the last strip is fixed, then R143, then the OPEN non-held strips, then the held ones. -/
def State.finaliseAll (s : State) : State :=
  { ((s.markLastStrip.finaliseBelow.finalise (fun r => !r.isHeld)).finalise (fun r => r.isHeld)) with
    cvm.lastCommit := true }

end Sys2Proof.Machine
end

