-- ==== Sys2Proof/Machine/Commits.lean ====
section
/-! DEFINITION. The commands of the blend unit (07): FINAL_COMMIT_ENTER, STRIP_OPEN_REQUEST, COMMIT_COMPLETE, and the operations by which a commit enters, begins and ends. -/
namespace Sys2Proof.Machine

/-- 07 R122: the commit queue has a place. -/
def State.commitRoom (s : State) : Bool := decide (s.blu.queue.length < Config.commitPlaces)

/-- 07 R125, R126, R135: the end of a commit's span. -/
def State.spanEnd (s : State) (c : Commit) : Int :=
  let r := s.keyOr c.key
  let right := placeU r.u + s.cfg.wf
  match c.kind with
  | .ordinary =>
    match r.seam with
    | some (x :: xs) => leastInt 0 (x :: xs) - 8
    | _ => right
  | .final => right
  | .closure => min (placeU r.u) (s.cvm.um.getD 0) + s.cfg.wf

/-- 07 R123, R124, R127: the commit at the head of the queue begins: its span and its column mapping are fixed; a span never ends before the frontier (notes/assumptions/38.md). With an empty queue BLU is IDLE. -/
def State.beginCommit (s : State) : State :=
  match s.blu.queue with
  | [] => { s with blu.state := .idle, blu.run := none }
  | c :: _ =>
    { s with
      blu.state := .writing
      blu.run := some { spanLo := s.blu.frontier, spanHi := max s.blu.frontier (s.spanEnd c)
                        wrap := if s.cfg.extent = .fullCircle then s.cvm.um else none
                        cursor := s.blu.frontier } }

/-- 07 R122, R123: a commit enters the queue; it begins at once on entering an empty queue. 07 R126: a final commit, and in a CLOSED session the closure commit, is the session's final commit. -/
def State.enterCommit (s : State) (c : Commit) : State :=
  let t := { s with
    blu.queue := s.blu.queue ++ [c]
    blu.entered := s.blu.entered + (if c.kind = .ordinary then 1 else 0)
    blu.finalEntered := s.blu.finalEntered || decide (c.kind ≠ .ordinary) }
  if s.blu.queue = [] then t.beginCommit else t

/-- 07 R126: the final commit for the marked key may enter. In a CLOSED session the mark enters nothing, also once the session is over: its closure commit has entered as the final commit. -/
def State.finalCommitDue (s : State) : Bool :=
  match s.blu.mark with
  | none => false
  | some n =>
    decide (s.swc.endCause ≠ some .closed ∧ s.blu.finalEntered = false ∧ n ≤ s.blu.entered)
      && s.commitRoom

/-- FINAL_COMMIT_ENTER (07 R126). -/
def execFinalCommitEnter (s : State) : Answer :=
  if s.finalCommitDue then
    .next (s.enterCommit { kind := .final, key := s.blu.mark.getD 0 }).settle
  else .next s

/-- 07 R132: the strip part in hand, if any, has made all its accesses. -/
def State.partWritten (s : State) : Bool := s.nextBlu.isNone

/-- STRIP_OPEN_REQUEST (07 R132, 08 R140 to R142): with its strip part written and columns left, BLU asks CVM to open the next strip of the running commit. -/
def execStripOpenRequest (s : State) : Answer :=
  match s.blu.run with
  | none => .next s
  | some run =>
    if s.blu.state = .writing ∧ run.cursor < run.spanHi ∧ s.partWritten then
      .next (s.openStrip (run.nextPart false).strip).settle
    else .next s

/-- 07 R134 steps 1 and 2: the key states and the releases. -/
def State.commitKeys (s : State) (c : Commit) : State :=
  let committed := fun r : KeyRecord => { r with state := .committed }
  let t := s.updateKey c.key committed
  let t := match c.kind with
    | .ordinary => t
    | .final | .closure => t.releaseKey c.key
  if c.key = 0 then t else t.releaseKey (c.key - 1)

/-- 07 R134 steps 3 and 4: the frontier takes the end of the span, and CVM finalises strips. -/
def State.moveFrontier (s : State) (c : Commit) (spanHi : Int) : State :=
  let t := { s with blu.frontier := spanHi }
  match c.kind with
  | .ordinary => t.finaliseBelow
  | .final | .closure => t.finaliseAll

/-- 07 R134: the commit at the head of the queue completes; the next one begins. -/
def State.completeCommit (s : State) (c : Commit) (rest : List Commit) (spanHi : Int) : State :=
  { ((s.commitKeys c).moveFrontier c spanHi) with blu.queue := rest, blu.run := none }.beginCommit

/-- COMMIT_COMPLETE (07 R134): the running commit has written its whole span. -/
def execCommitComplete (s : State) : Answer :=
  match s.blu.run, s.blu.queue with
  | some run, c :: rest =>
    if s.blu.state = .writing ∧ run.spanHi ≤ run.cursor ∧ s.partWritten then
      .next (s.completeCommit c rest run.spanHi).settle
    else .next s
  | _, _ => .next s

end Sys2Proof.Machine
end

