-- ==== Sys2Proof/Machine/Seams.lean ====
section
/-! DEFINITION. The commands of the seam unit (06): SEAM_JOB_DONE, CLOSURE_JOB_BEGIN, and COMMIT_ENTER, by which a job that waited at stage 4 hands its commit on. -/
namespace Sys2Proof.Machine

/-- 06 R118 steps 1 to 3 for an ordinary job (k-1 | k): gain and GAIN_LIMIT of key k; seam list, NARROW and SEAMED of key k-1; DAMAGED of both, each for its own errors (R117). -/
def State.writeOrdinary (s : State) (k : Nat) (failed : List Nat) : State :=
  let gain := s.jobGain k failed
  let seam := s.jobSeam failed (.ordinary k)
  let badLeft := failedInSlot failed (s.keyOr (k - 1)).slot
  let badRight := failedInSlot failed (s.keyOr k).slot
  (s.updateKey k (fun r =>
    { r with gain := some gain.1
             flags := { r.flags with gainLimit := r.flags.gainLimit || gain.2
                                     damaged := r.flags.damaged || badRight } })).updateKey (k - 1)
    (fun r =>
      { r with seam := seam.1, state := .seamed
               flags := { r.flags with narrow := r.flags.narrow || seam.2
                                       damaged := r.flags.damaged || badLeft } })

/-- 06 R120: what the closure job (n | V0) writes: the seam list, NARROW and SEAMED of key n; DAMAGED of key n and, for errors on held strips, of key 0. -/
def State.writeClosure (s : State) (n : Nat) (failed : List Nat) : State :=
  let seam := s.jobSeam failed (.closure n)
  let badKey := failedInSlot failed (s.keyOr n).slot
  let badHeld := failedInStrips failed
  (s.updateKey n (fun r =>
    { r with seam := seam.1, state := .seamed
             flags := { r.flags with narrow := r.flags.narrow || seam.2
                                     damaged := r.flags.damaged || badKey } })).updateKey 0
    (fun r => { r with flags := { r.flags with damaged := r.flags.damaged || badHeld } })

/-- 06 R118 steps 1 to 3, R120: the results of a job are written to the key records. -/
def State.writeJob (s : State) (failed : List Nat) : SeamJob → State
  | .ordinary k => s.writeOrdinary k failed
  | .closure n => s.writeClosure n failed

/-- 06 R118 step 4, R120: the commit that a job hands to BLU. -/
def SeamJob.commit : SeamJob → Commit
  | .ordinary k => { kind := .ordinary, key := k - 1 }
  | .closure n => { kind := .closure, key := n }

/-- 06 R118 steps 5 and 6: the job leaves the queue, the closure job of a CLOSURE key takes its place, and the job behind it begins. -/
def State.leaveSeam (s : State) (job : SeamJob) (rest : List SeamJob) : State :=
  let more : List SeamJob := match job with
    | .ordinary k => if (s.keyOr k).source = .closure then [.closure k] else []
    | .closure _ => []
  { s with smu.queue := rest ++ more, smu.run := none }.startSeam

/-- 06 R118 steps 4 to 6: the commit is handed to BLU and the job leaves. -/
def State.handCommit (s : State) (job : SeamJob) (rest : List SeamJob) : State :=
  (s.enterCommit job.commit).leaveSeam job rest

/-- SEAM_JOB_DONE (06 R118, R120): when the job has made its reads, its results are written; the commit is handed on when the commit queue has room, and else the job waits at stage 4 (R107). -/
def execSeamJobDone (s : State) : Answer :=
  match s.smu.run, s.smu.queue with
  | some run, job :: rest =>
    if run.held = false ∧ s.nextSeamRead = none then
      let t := s.writeJob run.rd.failed job
      if t.commitRoom then .next (t.handCommit job rest).settle
      else .next { t with smu.run := some { run with held := true } }.settle
    else .next s
  | _, _ => .next s

/-- 06 R119: the commit for key n-1 has completed. -/
def State.committedBefore (s : State) (n : Nat) : Bool :=
  match (s.keyAt (n - 1)).map KeyRecord.state with
  | some .committed | some .released => true
  | some .pinned | some .seamed | none => false

/-- CLOSURE_JOB_BEGIN (06 R119): the closure job at the head of the queue begins once the commit for key n-1 has completed. -/
def execClosureJobBegin (s : State) : Answer :=
  match s.smu.run, s.smu.queue with
  | none, .closure n :: _ =>
    if s.committedBefore n then .next { s with smu.run := some {} }.settle else .next s
  | _, _ => .next s

/-- COMMIT_ENTER (07 R122): the commit of a job that waits at stage 4 takes a freed place. -/
def execCommitEnter (s : State) : Answer :=
  match s.smu.run, s.smu.queue with
  | some run, job :: rest =>
    if run.held = true ∧ s.commitRoom then .next (s.handCommit job rest).settle else .next s
  | _, _ => .next s

end Sys2Proof.Machine
end

