-- ==== Sys2Proof/Machine/MemoryPort.lean ====
section
/-! DEFINITION. The command of the memory controller (10): MEMORY_ACCESS_COMPLETE. -/
namespace Sys2Proof.Machine

/-- MEMORY_ACCESS_COMPLETE (10 R162, R165 to R167): the access in progress completes with what its ECC word gives, the grant becomes none, and the waiting request of highest priority is granted. DESIGN CHOICE (notes/assumptions/42.md): the next request of the requester whose access completes takes part in that choice. With no access in progress there is only the choice. -/
def execMemoryAccessComplete (now : EccOutcome) (s : State) : Answer :=
  match s.grant with
  | none => .next s.arbitrate
  | some g =>
    if g.access.addr + 8 ≤ addressedBytes then
      .next { s.completeAccess g now with grant := none }.arbitrate
    else .fault .noSuchAddress

end Sys2Proof.Machine
end

