-- ==== Sys2Proof/Machine/Operands.lean ====
section
/-! DEFINITION. The operands of a request: the fields of its body, decoded by 11 R171 (notes/assumptions/14.md), the markers, defaults and clamps of 05 R83 and R86. -/
namespace Sys2Proof.Machine

/-! ### SESSION.ARM (05 R82 to R84) -/

/-- 05 R83: how a configuration field is given. -/
inductive FieldMark where
  | value (v : Nat)
  | useDefault
  | usePrevious
  | useProfile
  deriving DecidableEq, Repr

/-- 11 R171: one marked field of `n` bytes from the front of a body; none when it is not well formed. -/
def takeMarked (n : Nat) : List Byte → Option (FieldMark × List Byte)
  | [] => none
  | m :: rest =>
    match m.toNat with
    | 0 => if n ≤ rest.length then some (.value (fieldNat (rest.take n)), rest.drop n) else none
    | 1 => some (.useDefault, rest)
    | 2 => some (.usePrevious, rest)
    | 3 => some (.useProfile, rest)
    | _ => none

/-- 05 R83: a configuration field: its bytes, the values it may be given as, its default, and how it is clamped. -/
structure ArmField where
  bytes : Nat
  allowed : Nat → Bool
  default : Option Nat
  clamp : Nat → Nat

/-- 05 R83: a field refused when out of range. -/
def refusedField (bytes : Nat) (allowed : Nat → Bool) (default : Option Nat) : ArmField :=
  { bytes := bytes, allowed := allowed, default := default, clamp := fun v => v }

/-- 05 R83: a clamped field. -/
def clampedField (bytes lo hi default : Nat) : ArmField :=
  { bytes := bytes, allowed := fun _ => true, default := some default, clamp := clampNat lo hi }

/-- 05 R82: Wf and Hf. -/
def frameSizeOk (lo hi v : Nat) : Bool := decide (lo ≤ v ∧ v ≤ hi ∧ v % 64 = 0)

/-- 05 R83: the configuration fields in the order of the table, Wf before Hf and fill_y before fill_c. -/
def armFields : List ArmField :=
  [refusedField 2 (frameSizeOk 320 2048) none, refusedField 2 (frameSizeOk 256 1536) none,
   refusedField 1 (fun v => decide (v ≤ 3)) none, refusedField 1 (fun v => decide (v ≤ 2)) (some 0),
   refusedField 1 (fun v => decide (v ≤ 1)) (some 0), refusedField 1 (fun v => decide (v ≤ 1)) (some 0),
   refusedField 1 (fun v => decide (v ≤ 1)) (some 1),
   clampedField 1 20 60 40, clampedField 1 2 12 6, clampedField 1 0 25 10, clampedField 1 1 8 3,
   clampedField 1 2 32 8, clampedField 1 15 240 45, clampedField 1 1 8 2, clampedField 1 4 120 20,
   clampedField 2 15 600 90, clampedField 2 0 65535 960, clampedField 1 1 64 12,
   clampedField 2 0 65535 512, clampedField 2 8 1024 512, clampedField 1 0 255 16,
   clampedField 1 0 255 128]

/-- The place of profile_slot in the body of SESSION.ARM. -/
def profileSlotField : Nat := 2
/-- The place of extent in the body of SESSION.ARM. -/
def extentField : Nat := 4
/-- The place of texture_min in the body of SESSION.ARM, the one field that may be marked PROFILE (05 R83). -/
def textureField : Nat := 16

/-- The codes of a configuration's fields in the order of the body, for PREVIOUS (05 R83). -/
def SessionConfig.codes (c : SessionConfig) : List Nat :=
  [c.wf, c.hf, c.profileSlot,
   match c.direction with
   | .auto => 0
   | .left => 1
   | .right => 2,
   match c.extent with
   | .partialSweep => 0
   | .fullCircle => 1,
   match c.policy with
   | .wait => 0
   | .overwrite => 1,
   if c.gyroUse then 1 else 0, c.overlapPct, c.radius, c.marginPct, c.lockCount, c.coastLimit,
   c.calFrames, c.fastFrames, c.slowFrames, c.stallFrames, c.textureMin, c.matchMeanMax,
   c.distinctMin, c.maxStrips, c.fillY, c.fillC]

/-- What a field of an ARM body comes to. -/
inductive ArmValue where
  /-- A value, clamped. -/
  | value (v : Nat)
  /-- The texture_min of the named profile. -/
  | fromProfile
  deriving DecidableEq, Repr

/-- 05 R82 check 1 for one field: what its mark gives, or none when it fails. `prev` is the field's value in the previous configuration, when one is held. -/
def ArmField.resolve (f : ArmField) (place : Nat) (prev : Option Nat) : FieldMark → Option ArmValue
  | .value v => if f.allowed v then some (.value (f.clamp v)) else none
  | .useDefault => f.default.map .value
  | .usePrevious => prev.map .value
  | .useProfile => if place = textureField then some .fromProfile else none

/-- 05 R82 check 1: the fields of a body in order, from place `place` on: their values, or the place of the first that fails (none: bytes are left over). -/
def readArm (prev : Option (List Nat)) : Nat → List ArmField → List Byte →
    Except (Option Nat) (List ArmValue)
  | _, [], [] => .ok []
  | _, [], _ :: _ => .error none
  | place, f :: fs, body =>
    match takeMarked f.bytes body with
    | none => .error (some place)
    | some (mark, rest) =>
      match f.resolve place (prev.bind (fun l => l[place]?)) mark with
      | none => .error (some place)
      | some v =>
        match readArm prev (place + 1) fs rest with
        | .ok vs => .ok (v :: vs)
        | .error e => .error e

/-- The value of a field whose mark was not PROFILE; `texture` stands for PROFILE. -/
def ArmValue.get (texture : Nat) : ArmValue → Nat
  | .value v => v
  | .fromProfile => texture

/-- The direction of a code (05 R83). -/
def directionOf : Nat → DirectionChoice
  | 1 => .left
  | 2 => .right
  | _ => .auto

/-- 05 R83, R84: the configuration of 22 field values and the named profile, before the slow_frames rule. -/
def configOf (values : List ArmValue) (p : ProfileFields) : SessionConfig :=
  let at0 := fun i : Nat => (values.getD i (.value 0)).get p.textureMin
  { wf := at0 0, hf := at0 1, profileSlot := at0 2, direction := directionOf (at0 3)
    extent := if at0 4 = 1 then .fullCircle else .partialSweep
    policy := if at0 5 = 1 then .overwrite else .wait
    gyroUse := decide (at0 6 = 1), overlapPct := at0 7, radius := at0 8, marginPct := at0 9
    lockCount := at0 10, coastLimit := at0 11, calFrames := at0 12, fastFrames := at0 13
    slowFrames := at0 14, stallFrames := at0 15, textureMin := at0 16, matchMeanMax := at0 17
    distinctMin := at0 18, maxStrips := at0 19, fillY := at0 20, fillC := at0 21
    f16 := p.f16, cxOff := p.cxOff, cyOff := p.cyOff }

/-! ### Sets of items: SESSION.TUNE and FAULT.CLEAR -/

/-- 05 R86: bytes of the value of the tunable at a place of the list. -/
def tunableBytesAt : Nat → Option Nat
  | 0 | 1 | 2 | 3 | 4 | 5 => some 1
  | 6 => some 2
  | _ => none

/-- 05 R83, R86: a tunable set to a value, clamped; a tunable named twice takes the later value. -/
def Tunables.put (t : Tunables) (place v : Nat) : Tunables :=
  match place with
  | 0 => { t with overlapPct := some (clampNat 20 60 v) }
  | 1 => { t with radius := some (clampNat 2 12 v) }
  | 2 => { t with lockCount := some (clampNat 1 8 v) }
  | 3 => { t with coastLimit := some (clampNat 2 32 v) }
  | 4 => { t with fastFrames := some (clampNat 1 8 v) }
  | 5 => { t with slowFrames := some (clampNat 4 120 v) }
  | 6 => { t with stallFrames := some (clampNat 15 600 v) }
  | _ => t

/-- 11 R171: `n` tunables with values fill the rest of a body. -/
def readTunables (t : Tunables) : Nat → List Byte → Option Tunables
  | 0, [] => some t
  | 0, _ :: _ => none
  | _ + 1, [] => none
  | n + 1, place :: rest =>
    match tunableBytesAt place.toNat with
    | none => none
    | some w =>
      if w ≤ rest.length then readTunables (t.put place.toNat (fieldNat (rest.take w))) n (rest.drop w)
      else none

/-- 05 R86: the body of SESSION.TUNE: one or more tunables with values. -/
def tuneBody : List Byte → Option Tunables
  | [] => none
  | n :: rest => if n = 0#8 then none else readTunables {} n.toNat rest

/-- 11 R180: the body of FAULT.CLEAR: the conditions named, by their places. -/
def faultClearBody : List Byte → Option (List Nat)
  | [] => none
  | n :: rest =>
    if rest.length = n.toNat ∧ rest.all (fun b => decide (b.toNat ≤ 2)) then
      some (rest.map (fun b => b.toNat))
    else none

/-! ### The other bodies -/

/-- A body of exactly `n` bytes. -/
def exactly (n : Nat) (body : List Byte) : Option (List Byte) :=
  if body.length = n then some body else none

/-- 04 R79: KEY.GET: the key index and the first seam row, 0 or more (four bytes, R171). -/
def keyGetBody (body : List Byte) : Option (Nat × Nat) :=
  (exactly 5 body).bind (fun b =>
    let row := fieldInt (b.drop 1)
    if fieldNat (b.take 1) ≤ 63 ∧ 0 ≤ row then some (fieldNat (b.take 1), row.toNat) else none)

/-- 11 R182: STRIP.GET: the strip index, 0..1,023. -/
def stripGetBody (body : List Byte) : Option Nat :=
  (exactly 2 body).bind (fun b => if fieldNat b ≤ 1023 then some (fieldNat b) else none)

/-- 03 R48: GYRO.PUT: the yaw and pitch increments (four bytes each, R171). -/
def gyroPutBody (body : List Byte) : Option (Int × Int) :=
  (exactly 8 body).map (fun b => (fieldInt (b.take 4), fieldInt (b.drop 4)))

/-- 09 R159: the actions of OUTPUT.RESUME. -/
inductive ResumeAction where
  | retry | skip
  deriving DecidableEq, Repr

/-- 09 R159: OUTPUT.RESUME: its action. -/
def resumeBody : List Byte → Option ResumeAction
  | [b] => if b = 0#8 then some .retry else if b = 1#8 then some .skip else none
  | _ => none

/-- 12 R190: what PROFILE.READ names. -/
inductive ReadTarget where
  | slot (i : Fin 4)
  | protection
  deriving DecidableEq, Repr

/-- 12 R187: a profile slot. -/
def profileSlotBody : List Byte → Option (Fin 4)
  | [b] => if h : b.toNat < 4 then some ⟨b.toNat, h⟩ else none
  | _ => none

/-- 12 R190: PROFILE.READ: a slot 0..3, or 4 for the protection record. -/
def profileReadBody (body : List Byte) : Option ReadTarget :=
  if body = [4#8] then some .protection else (profileSlotBody body).map .slot

/-- 12 R188: PROFILE.PROTECT: a mask of four bits. -/
def protectBody : List Byte → Option (BitVec 4)
  | [b] => if b.toNat < 16 then some (b.setWidth 4) else none
  | _ => none

/-- 12 R186: PROFILE.STAGE: the record, or the place of the field that fails. DESIGN CHOICE (notes/assumptions/14.md): of several fields that fail the first in the order of the body is named, a missing or cut field counts as one that fails in its place, and bytes left over behind the last field name no field. -/
def stageBody (body : List Byte) : Except (Option Nat) ProfileFields :=
  let f16 := fieldNat (body.take 3)
  let cx := fieldInt ((body.drop 3).take 2)
  let cy := fieldInt ((body.drop 5).take 2)
  if body.length < 3 ∨ f16 < 1 ∨ 1048575 < f16 then .error (some 0)
  else if body.length < 5 ∨ cx < -16384 ∨ 16384 < cx then .error (some 1)
  else if body.length < 7 ∨ cy < -16384 ∨ 16384 < cy then .error (some 2)
  else if body.length < 9 then .error (some 3)
  else if 9 < body.length then .error none
  else .ok { f16 := f16, cxOff := cx, cyOff := cy, textureMin := fieldNat (body.drop 7) }

end Sys2Proof.Machine
end

