-- ==== Sys2Proof/Machine/Output.lean ====
section
/-! DEFINITION. The commands of the output unit (09): TRANSFER_START, SOP_LINE_START, SOP_RDY_CHANGE, TRANSFER_COMPLETE, CUT_TRAILER_DONE. -/
namespace Sys2Proof.Machine

/-- 09 R154: the strip that may start its transfer: the FINAL head of the output queue with its mark clear. -/
def State.readyHead (s : State) : Option Strip :=
  match s.cvm.outQueue with
  | [] => none
  | j :: _ => (s.stripAt j).filter (fun r => decide (r.state = .final ∧ r.error = false))

/-- 09 R155: a line begins on the strip output port: SOP_LV rises and none of its beats has been presented. -/
def State.presentLine (s : State) (line : List Beat) : State :=
  { s with pins.sopLv := true, pins.sopLine := line, pins.sopBeat := 0 }

/-- 09 R154: the transfer of strip r starts and its header line is presented. -/
def State.startTransfer (s : State) (r : Strip) : State :=
  let number := addHold Config.countTop s.opu.number 1
  let t := s.updateStrip r.index (fun q => { q with state := .sending })
  { t with
    opu.state := .sending
    opu.number := number
    opu.xfer := some { strip := r.index, session := s.swc.id, line := 0, errorSeen := false
                       holes := r.holes, flags := s.stripFlags r }
    pins.sopFv := true }.presentLine (s.headerLine r s.swc.id number)

/-- TRANSFER_START (09 R154): OPU is IDLE, the head may start, SOP_RDY is high. -/
def execTransferStart (s : State) : Answer :=
  match s.readyHead with
  | none => .next s
  | some r =>
    if s.opu.state = .idle ∧ s.pins.sopRdy then .next (s.startTransfer r).settle else .next s

/-- SOP_LINE_START (09 R155, R156, 10 R164): the reads of the next line have completed; OPU begins it and reads the line after it. A line still in progress has ended first (notes/assumptions/22.md). -/
def execSopLineStart (s : State) : Answer :=
  match s.opu.state, s.opu.xfer with
  | .sending, some x =>
    match s.stripAt x.strip with
    | none => .next s
    | some r =>
      if s.pins.sopRdy ∧ x.line < s.stripLines ∧ s.nextLineRead = none then
        .next ({ s with opu.xfer := some { x with line := x.line + 1, rd := {} } }.presentLine
          (s.stripLine r x.rd.failed (x.line + 1))).settle
      else .next s
  | _, _ => .next s

/-- SOP_RDY_CHANGE (09 R156): SOP_RDY takes a level; while it is low no beat is presented and a transfer keeps its state. -/
def execSopRdyChange (level : Bool) (s : State) : Answer := .next { s with pins.sopRdy := level }

/-- The end of the trailer line: its last beat is presented, SOP_LV and SOP_FV fall (09 R155). -/
def State.presentTrailer (s : State) (x : Transfer) (status : Nat) : State :=
  { s with pins.sopLine := trailerLine x s.opu.number status
           pins.sopBeat := (trailerLine x s.opu.number status).length
           pins.sopLv := false, pins.sopFv := false }

/-- 09 R155: the transfer record with the hole count and flags that the strip record now holds. -/
def State.refreshed (s : State) (x : Transfer) : Transfer :=
  match s.stripAt x.strip with
  | some r => { x with holes := r.holes, flags := s.stripFlags r }
  | none => x

/-- 09 R155: what the trailer of the transfer that ends carries: a trailer already begun keeps what it was built with, and one still to be built takes what the strip record now holds. -/
def State.trailerRecord (s : State) (x : Transfer) : Transfer := if x.trailer then x else s.refreshed x

/-- 09 R157: the end of a clean transfer. -/
def State.transferClean (s : State) (x : Transfer) (r : Strip) : State :=
  let t := ((s.presentTrailer (s.trailerRecord x) 0).removeStrip r.index).countSent
  (((t.notifyStrip x.session r .sent s.opu.number).clearTransfer).setOpuState .idle).endWait r.index

/-- 09 R158: the end of a transfer that met a memory error. -/
def State.transferFailed (s : State) (x : Transfer) (r : Strip) : State :=
  let t := (s.presentTrailer (s.trailerRecord x) 1).updateStrip r.index
    (fun q => { q with state := .final, error := true })
  ((t.setOpuState .halted).setOutputHalted true).notifyStrip x.session r .memoryError s.opu.number

/-- TRANSFER_COMPLETE (09 R157, R158): all lines are sent, the trailer is sent to its last beat while SOP_RDY is high, and SOP_FV falls. -/
def execTransferComplete (s : State) : Answer :=
  match s.opu.state, s.opu.xfer with
  | .sending, some x =>
    match s.stripAt x.strip with
    | none => .next s
    | some r =>
      if s.pins.sopRdy ∧ s.stripLines ≤ x.line then
        if x.errorSeen then .next (s.transferFailed x r).settle else .next (s.transferClean x r).settle
      else .next s
  | _, _ => .next s

/-- CUT_TRAILER_DONE (09 R160): the ABORTED trailer is sent while SOP_RDY is high, SOP_FV falls and OPU is IDLE with its transfer record empty. -/
def execCutTrailerDone (s : State) : Answer :=
  match s.opu.state, s.opu.xfer with
  | .cutting, some x =>
    if s.pins.sopRdy then
      .next ((s.presentTrailer x 2).clearTransfer.setOpuState .idle)
    else .next s
  | _, _ => .next s

/-! ### The beats (09 R155, R156; notes/assumptions/22.md) -/

/-- 09 R155: the trailer line of the transfer has begun. -/
def State.trailerBegun (s : State) : Bool := (s.opu.xfer.map Transfer.trailer).getD false

/-- 09 R155, R156: the next beat of the line in progress is presented; with the last one SOP_LV falls. The last beat of a trailer is that of TRANSFER_COMPLETE or CUT_TRAILER_DONE. -/
def State.presentBeat (s : State) : State :=
  if s.pins.sopBeat + 1 < s.pins.sopLine.length then { s with pins.sopBeat := s.pins.sopBeat + 1 }
  else if s.trailerBegun then s
  else { s with pins.sopBeat := s.pins.sopLine.length, pins.sopLv := false }

/-- 09 R155, R160: the trailer line begins. -/
def State.beginTrailer (s : State) (x : Transfer) (status : Nat) : State :=
  { s with opu.xfer := some { x with trailer := true } }.presentLine (trailerLine x s.opu.number status)

/-- 09 R155, R156, R160: what one beat's time brings about on the strip output port while SOP_RDY is high: a beat of the line in progress, or the start of the trailer once every line of the transfer has ended or has been cut off. While SOP_RDY is low nothing is presented and the levels stay. -/
def State.tick (s : State) : State :=
  if s.pins.sopRdy then
    if s.pins.sopLv then s.presentBeat
    else
      match s.opu.state, s.opu.xfer with
      | .sending, some x =>
        if s.stripLines ≤ x.line then s.beginTrailer (s.refreshed x) (if x.errorSeen then 1 else 0) else s
      | .cutting, some x => s.beginTrailer x 2
      | _, _ => s
  else s

end Sys2Proof.Machine
end

