-- ==== Sys2Proof/Machine/Link.lean ====
section
/-! DEFINITION. The commands of the link unit's transport (11): LINK_TRANSACTION_START, MESSAGE_SENT, LINK_TRANSACTION_END, REQUEST_RECEIVED, LINK_FRAME_DISCARD, REQUEST_DISPATCH. -/
namespace Sys2Proof.Machine

/-! ### The receiver (11 R172, R173) -/

/-- 11 R173: a request passed on by the receiver enters the queue, is refused QUEUE_FULL, or is dropped with REQUEST_LOST. -/
def State.takeRequest (s : State) (r : Request) : State :=
  if s.lku.requests.length < Config.requestPlaces then
    { s with lku.requests := s.lku.requests ++ [r] }
  else if s.lku.placesTaken < Config.replyPlaces then
    { s with lku.replies := s.lku.replies ++
        [{ type := replyType r.type, tag := r.tag, body := .result .queueFull }] }
  else s.noteRequestLost

/-- 11 R172: what the receiver makes of the bytes of a frame taken so far, after the start byte. -/
inductive FrameCheck where
  | more
  | bad
  | good (r : Request)
  deriving DecidableEq, Repr

/-- 11 R171, R172: the check of a frame's bytes: a length above 240 is bad at once; with both CRC bytes in, the CRC decides. -/
def checkFrame (bytes : List Byte) : FrameCheck :=
  match bytes with
  | type :: tag :: len :: rest =>
    if 240 < len.toNat then .bad
    else if rest.length < len.toNat + 2 then .more
    else
      let body := rest.take len.toNat
      if crc16 (type :: tag :: len :: body) = BitVec.ofNat 16 (fieldNat (rest.drop len.toNat)) then
        .good { type := type, tag := tag, body := body }
      else .bad
  | _ => .more

/-- 11 R172: a frame is discarded: LINK_ERROR is set and the receiver returns to HUNT. -/
def State.discardInbound (s : State) : State := { s with lku.rx := .hunt }.noteLinkError

/-- 11 R172: one byte into the receiver. -/
def State.receiveByte (s : State) (b : Byte) : State :=
  match s.lku.rx with
  | .hunt => if b = startByte then { s with lku.rx := .frame [] } else s
  | .frame bytes =>
    match checkFrame (bytes ++ [b]) with
    | .more => { s with lku.rx := .frame (bytes ++ [b]) }
    | .bad => s.discardInbound
    | .good r => { s with lku.rx := .hunt }.takeRequest r

/-- 11 R170: the byte that the part shifts out on LK_DO next: none while it leaves LK_DO undriven, 0x00 where no message is being sent. -/
def Outbound.nextByte : Outbound → Option Byte
  | .undriven => none
  | .nothing => some 0#8
  | .reply rest | .notice rest | .lost rest => some (rest.headD 0#8)

/-- 11 R170, R183: one byte is shifted out. A message whose last byte is leaves its queue; a notice that ENGINE.RESET has taken out of its queue is in none. -/
def State.shiftByte (s : State) : State :=
  match s.lku.tx with
  | .undriven | .nothing => s
  | .reply (_ :: b :: rest) => { s with lku.tx := .reply (b :: rest) }
  | .notice (_ :: b :: rest) => { s with lku.tx := .notice (b :: rest) }
  | .lost (_ :: b :: rest) => { s with lku.tx := .lost (b :: rest) }
  | .reply _ => { s with lku.replies := s.lku.replies.tail, lku.tx := .nothing }
  | .notice _ => { s with lku.notices := s.lku.notices.tail, lku.tx := .nothing }
  | .lost _ => { s with lku.tx := .nothing }

/-- 11 R170: eight clocks pass one byte in each direction. DESIGN CHOICE (notes/assumptions/32.md): the byte out is taken before the byte in. -/
def State.clockByte (s : State) (b : Byte) : State := s.shiftByte.receiveByte b

/-- 11 R170: bytes clocked during a transaction; outside one there are none. -/
def State.receive (s : State) (bytes : List Byte) : State :=
  if s.pins.lkSelected then bytes.foldl State.clockByte s else s

/-- REQUEST_RECEIVED (11 R172, R173): the bytes up to the last CRC byte of a frame. -/
def execRequestReceived (bytes : List Byte) (s : State) : Answer := .next (s.receive bytes)

/-- LINK_FRAME_DISCARD (11 R172): the bytes up to the one at which the receiver discards a frame. -/
def execLinkFrameDiscard (bytes : List Byte) (s : State) : Answer := .next (s.receive bytes)

/-! ### Transactions (11 R170) -/

/-- 11 R170: the message selected at the fall of LK_SEL_N: the oldest reply, else the oldest notice. -/
def Lku.selected (l : Lku) : Outbound :=
  match l.replies, l.notices with
  | r :: _, _ => .reply r.bytes
  | [], n :: _ => .notice n.bytes
  | [], [] => .nothing

/-- LINK_TRANSACTION_START (11 R170). -/
def execLinkTransactionStart (s : State) : Answer :=
  if s.pins.lkSelected then .next s
  else .next { s with pins.lkSelected := true, lku.tx := s.lku.selected }

/-- 11 R170: the bytes of the message in hand that are still to be shifted out. -/
def Outbound.left : Outbound → List Byte
  | .undriven | .nothing => []
  | .reply rest | .notice rest | .lost rest => rest

/-- MESSAGE_SENT (11 R170, R177): the host reads on to the last byte of the message, with which the message leaves its queue. The bytes that a host clocks in while it only reads are 0x00 (R172; notes/assumptions/32.md). -/
def execMessageSent (s : State) : Answer := .next (s.receive (s.lku.tx.left.map (fun _ => 0#8)))

/-- 11 R172: a rise of LK_SEL_N before a frame's last CRC byte discards the frame. -/
def State.cutInbound (s : State) : State :=
  match s.lku.rx with
  | .hunt => s
  | .frame _ => s.discardInbound

/-- LINK_TRANSACTION_END (11 R170, R172): the last bytes are clocked, LK_SEL_N rises, LK_DO is undriven, an incomplete inbound frame is discarded, and a message cut short stays in its queue. -/
def execLinkTransactionEnd (tail : List Byte) (s : State) : Answer :=
  if s.pins.lkSelected then
    .next { (s.receive tail).cutInbound with pins.lkSelected := false, lku.tx := .undriven }
  else .next s

/-! ### Dispatch (11 R173) -/

/-- REQUEST_DISPATCH (11 R173, R174): the head request is dispatched when a reply place is free, which it reserves. -/
def execRequestDispatch (s : State) : Answer :=
  if s.lku.executing = false ∧ s.lku.requests ≠ [] ∧ s.lku.replies.length < Config.replyPlaces then
    .next { s with lku.executing := true }
  else .next s

/-- The head request, once dispatched, when its type satisfies `p`. -/
def State.headRequest (s : State) (p : Byte → Bool) : Option Request :=
  if s.lku.executing then (s.lku.requests.head?).filter (fun r => p r.type) else none

/-- The effect of a request row: the head request, once dispatched and of the row's type, is executed on its body; otherwise the row has nothing to execute. -/
def State.execute (s : State) (type : Byte) (handle : List Byte → State) : Answer :=
  match s.headRequest (fun t => t == type) with
  | some r => .next (handle r.body)
  | none => .next s

/-- 11 R175: a reply of a result code alone. -/
def State.answerCode (s : State) (code : ResultCode) : State := s.answer (.result code)

end Sys2Proof.Machine
end

