-- ==== Sys2Proof/Machine/Requests.lean ====
section
/-! DEFINITION. The requests of the link unit, of the key and strip tables, of the gyro and of the output halt: UNKNOWN_TYPE, IDENT_GET, STATUS_GET, FAULT_CLEAR, KEY_GET, STRIP_GET, GYRO_PUT, OUTPUT_RESUME_RETRY, OUTPUT_RESUME_SKIP. -/
namespace Sys2Proof.Machine

/-- UNKNOWN_TYPE (11 R172): a dispatched request whose type is not a request is answered with the type received. -/
def execUnknownType (s : State) : Answer :=
  match s.headRequest (fun t => !requestTypes.contains t) with
  | some r => .next (s.answer (.unknown r.type))
  | none => .next s

/-- 11 R175: a request with no fields: any body is refused with BAD_FIELD. -/
def State.withoutFields (s : State) (body : List Byte) (t : State) : State :=
  if body = [] then t else s.answerCode .badField

/-- IDENT_GET (11 R181). -/
def execIdentGet (s : State) : Answer :=
  s.execute 0x01#8 (fun body => s.withoutFields body (s.answer .ident))

/-- 11 R178: the status record as it stands. -/
def State.statusRecord (s : State) : StatusRecord :=
  { state := s.swc.state, id := s.swc.id, endCause := s.swc.endCause, decided := s.swc.decided
    stored := s.igu.nextStored, dropped := s.igu.dropped, keyCount := s.swc.keys.length
    lock := s.tku.lock.state, pace := s.swc.pace.reported, slotsInUse := s.slotsInUse
    frontierStrip := s.blu.frontier / 128, queueLength := s.cvm.outQueue.length
    output := s.opu.state, burning := s.psc.burn.isSome, flags := s.lku.flags, conds := s.lku.conds }

/-- STATUS_GET (11 R178, R179): the record is copied, then the flags it reports are cleared. -/
def execStatusGet (s : State) : Answer :=
  s.execute 0x02#8 (fun body =>
    s.withoutFields body (s.answer (.status s.statusRecord)).clearEventFlags)

/-- 11 R180: the conditions with the one at a place of the list cleared. -/
def Conditions.clear (c : Conditions) (place : Nat) : Conditions :=
  match place with
  | 0 => { c with outputHalted := false }
  | 1 => { c with profileBad := false }
  | 2 => { c with burnFailed := false }
  | _ => c

/-- 11 R180: the checks and the effect of FAULT.CLEAR. -/
def State.faultClear (s : State) (body : List Byte) : State :=
  match faultClearBody body with
  | none => s.answerCode .badField
  | some names =>
    if names.contains 0 then s.answerCode .wrongState
    else
      let c := names.foldl Conditions.clear s.lku.conds
      { s with lku.conds := c }.answer (.conditions c)

/-- FAULT_CLEAR (11 R180). -/
def execFaultClear (s : State) : Answer := s.execute 0x03#8 s.faultClear

/-- 04 R79: the checks and the reply of KEY.GET. -/
def State.keyGet (s : State) (body : List Byte) : State :=
  match keyGetBody body with
  | none => s.answerCode .badField
  | some (k, row) =>
    match s.keyAt k with
    | none => s.answerCode .notFound
    | some r => s.answer (.key r (((r.seam.getD []).drop row).take 64))

/-- KEY_GET (04 R79). -/
def execKeyGet (s : State) : Answer := s.execute 0x18#8 s.keyGet

/-- The place of an entry in a list, counted from 0. -/
def placeIn (j : Nat) (l : List Nat) : Option Nat := l.findIdx? (fun k => k == j)

/-- 11 R182: the checks and the reply of STRIP.GET. -/
def State.stripGet (s : State) (body : List Byte) : State :=
  match stripGetBody body with
  | none => s.answerCode .badField
  | some j =>
    match s.stripAt j with
    | none => s.answerCode .notFound
    | some r => s.answer (.strip r (placeIn j s.cvm.outQueue))

/-- STRIP_GET (11 R182). -/
def execStripGet (s : State) : Answer := s.execute 0x19#8 s.stripGet

/-- 03 R48: GYRO.PUT adds its increments in the storing states; elsewhere it is answered OK with no effect. -/
def State.gyroPut (s : State) (body : List Byte) : State :=
  match gyroPutBody body with
  | none => s.answerCode .badField
  | some (yaw, pitch) =>
    if s.storing then { s with tku.gyro := s.tku.gyro.put yaw pitch }.answerCode .ok
    else s.answerCode .ok

/-- GYRO_PUT (03 R48). -/
def execGyroPut (s : State) : Answer := s.execute 0x20#8 s.gyroPut

/-! ### OUTPUT.RESUME (09 R159) -/

/-- 09 R159: the halt ends. -/
def State.endHalt (s : State) : State := (s.setOpuState .idle).setOutputHalted false

/-- 09 R159: the halted strip: the head of the output queue when its error mark is set. -/
def State.haltedStrip (s : State) : Option Strip :=
  match s.cvm.outQueue with
  | [] => none
  | j :: _ => (s.stripAt j).filter Strip.error

/-- 09 R159: RETRY on a halted strip. -/
def State.retryStrip (s : State) (r : Strip) : State :=
  (s.updateStrip r.index (fun q => { q with error := false })).endHalt

/-- 09 R159: SKIP on a halted strip: it leaves, the counts rise, a STRIP notice SKIPPED is queued, the halt ends, and a commit that waits on the slot goes on. -/
def State.skipStrip (s : State) (r : Strip) : State :=
  let t := ((s.removeStrip r.index).countSkipped).notifyStrip s.swc.id r .skipped s.opu.number
  (t.clearTransfer.endHalt).endWait r.index

/-- 09 R159: OUTPUT.RESUME: the field, then the state of OPU, then the action on the halted strip if there is one. -/
def State.outputResume (s : State) (action : Option ResumeAction) : State :=
  match action with
  | none => s.answerCode .badField
  | some a =>
    if s.opu.state = .halted then
      match s.haltedStrip with
      | none => (s.endHalt.answerCode .ok).settle
      | some r =>
        match a with
        | .retry => ((s.retryStrip r).answerCode .ok).settle
        | .skip => ((s.skipStrip r).answerCode .ok).settle
    else s.answerCode .wrongState

/-- OUTPUT_RESUME_RETRY (09 R159): an OUTPUT.RESUME whose action is RETRY or no action. -/
def execOutputResumeRetry (s : State) : Answer :=
  s.execute 0x21#8 (fun body =>
    if resumeBody body = some .skip then s else s.outputResume (resumeBody body))

/-- OUTPUT_RESUME_SKIP (09 R159): an OUTPUT.RESUME whose action is SKIP or no action. -/
def execOutputResumeSkip (s : State) : Answer :=
  s.execute 0x21#8 (fun body =>
    if resumeBody body = some .retry then s else s.outputResume (resumeBody body))

end Sys2Proof.Machine
end

