-- ==== Sys2Proof/Machine/Resets.lean ====
section
/-! DEFINITION. The ends of a session by request and the resets (05 R102 to R104, 09 R160, 10 R169, 11 R183, 12 R185, R189): SESSION_ABORT, SESSION_RELEASE, ENGINE_RESET, PIN_RESET. -/
namespace Sys2Proof.Machine

/-- 09 R160: SESSION.ABORT and ENGINE.RESET cut off a transfer: the line in progress ends at the beat reached, SOP_LV falls, and OPU delivers the ABORTED trailer with what the transfer latched and the strip record's hole count and flags. In IDLE and HALTED the transfer record is emptied (R153). -/
def State.cutTransfer (s : State) : State :=
  match s.opu.state with
  | .sending =>
    { s with
      pins.sopLv := false
      pins.sopLine := s.pins.sopLine.take s.pins.sopBeat
      opu.state := .cutting
      opu.xfer := s.opu.xfer.map (fun x => { s.refreshed x with rd := {}, trailer := false }) }
  | .cutting => s
  | .idle | .halted => s.clearTransfer

/-- 05 R102, 01 R14, 08 R151, 10 R169: the work of the session is abandoned in every block at once. The session record keeps the id and, as the previous configuration, the configuration. -/
def State.abandon (s : State) : State :=
  { s.cutTransfer.orphanAccess with
    igu := Igu.reset
    tku := Tku.reset
    swc := { Swc.reset with id := s.swc.id, config := s.swc.config }
    smu := Smu.reset
    blu := Blu.reset
    cvm := Cvm.reset }

/-- 05 R102: SESSION.ABORT: refused in IDLE; else the work is abandoned and a SESSION notice is queued. -/
def State.sessionAbort (s : State) : State :=
  if s.swc.state = .idle then s.answerCode .wrongState
  else (s.abandon.notifySession s.swc.state .idle).answerCode .ok

/-- SESSION_ABORT (05 R102). -/
def execSessionAbort (s : State) : Answer :=
  s.execute 0x14#8 (fun body => s.withoutFields body s.sessionAbort)

/-- 05 R103, 07 R124, 08 R152: what SESSION.RELEASE clears and keeps: every slot is FREE; keys, patch sets, motion, lock, strips, closure bookkeeping and counts are cleared and the frontier is 0; the column map, IGU's counts, the id and the configuration are kept. -/
def State.release (s : State) : State :=
  { s with
    igu.slots := Igu.reset.slots
    tku := Tku.reset
    swc := { Swc.reset with id := s.swc.id, config := s.swc.config }
    blu.frontier := 0
    cvm := Cvm.reset }

/-- 05 R103: SESSION.RELEASE: refused outside DONE. -/
def State.sessionRelease (s : State) : State :=
  if s.swc.state = .done then (s.release.notifySession .done .idle).answerCode .ok
  else s.answerCode .wrongState

/-- SESSION_RELEASE (05 R103). -/
def execSessionRelease (s : State) : Answer :=
  s.execute 0x15#8 (fun body => s.withoutFields body s.sessionRelease)

/-- 11 R183: the notice queue is emptied; a notice being shifted out is shifted out to the end of the transaction and then lost. -/
def State.emptyNotices (s : State) : State :=
  { s with
    lku.notices := []
    lku.tx := match s.lku.tx with
      | .notice bytes => .lost bytes
      | .undriven => .undriven
      | .nothing => .nothing
      | .reply bytes => .reply bytes
      | .lost bytes => .lost bytes }

/-- 09 R160: ENGINE.RESET ends a halt. -/
def OpuState.afterEngineReset : OpuState → OpuState
  | .halted => .idle
  | .idle => .idle
  | .sending => .sending
  | .cutting => .cutting

/-- 05 R104, 11 R183: the clears of ENGINE.RESET: those of SESSION.ABORT without its notice, the previous configuration, the notice queue, OUTPUT_HALTED and BURN_FAILED. -/
def State.engineClears (s : State) : State :=
  let t := s.abandon
  (({ t with swc.config := none, opu.state := t.opu.state.afterEngineReset }.emptyNotices).setOutputHalted
    false).setBurnFailed false

/-- ENGINE_RESET (05 R104): refused with BUSY while a burn runs. -/
def execEngineReset (s : State) : Answer :=
  s.execute 0x3F#8 (fun body => s.withoutFields body
    (if s.psc.burn.isSome then s.answerCode .busy else s.engineClears.answerCode .ok))

/-! ### Pin reset -/

/-- 12 R185: what a load gives the shadow. -/
def loadShadow (p : Psc) : Shadow :=
  { slots := p.profiles.map (fun r =>
      { valid := decide (r.crc = profileCrc r.fields), fields := r.fields })
    mask := if p.protection.crc = protectionCrc p.protection.fields then p.protection.fields.mask
      else 0xF#4
    locked := if p.protection.crc = protectionCrc p.protection.fields then p.protection.fields.locked
      else false }

/-- 12 R185: a load finds a bad record. -/
def badStore (p : Psc) : Bool :=
  p.profiles.toList.any (fun r => decide (r.crc ≠ profileCrc r.fields))
    || decide (p.protection.crc ≠ protectionCrc p.protection.fields)

/-- 12 R185: the shadow is loaded; a bad slot keeps no valid values, and PROFILE_BAD is set for a bad record and never cleared. -/
def State.load (s : State) : State :=
  let t := { s with psc.shadow := loadShadow s.psc }
  if badStore s.psc then t.setProfileBad true else t

/-- 12 R189: a CRC that is bad for its fields: as written, or inverted where it happens to match. DESIGN CHOICE (notes/assumptions/5.md): which bad CRC a burn cut off by pin reset leaves. -/
def badCrc (good crc : BitVec 16) : BitVec 16 := if crc = good then ~~~ crc else crc

/-- 12 R189: the record that a burn cut off by pin reset leaves: field values and a bad CRC that the spec leaves open (notes/assumptions/5.md). -/
def cutProfile (n : Nat) : StoredProfile :=
  let f : ProfileFields :=
    { f16 := Config.cutBurnField n % 2 ^ 24, cxOff := (Config.cutBurnOffset n).toInt
      cyOff := (Config.cutBurnOffset (n + 1)).toInt, textureMin := Config.cutBurnField (n + 1) % 2 ^ 16 }
  { fields := f, crc := badCrc (profileCrc f) (Config.cutBurnCrc n) }

/-- 12 R189: the protection record that a burn cut off by pin reset leaves: field values and a bad CRC that the spec leaves open (notes/assumptions/5.md). -/
def cutProtection (n : Nat) : StoredProtection :=
  let f : ProtectionFields := { mask := Config.cutBurnMask n, locked := Config.cutBurnLock n }
  { fields := f, crc := badCrc (protectionCrc f) (Config.cutBurnCrc n) }

/-- 12 R184, R189: the store controller at pin reset: a running burn ends and leaves its target bad, the stage buffer is empty. -/
def Psc.pinReset (p : Psc) (n : Nat) : Psc :=
  { p with
    profiles := match p.burn with
      | some (.profile slot _) => p.profiles.set slot (cutProfile n)
      | some (.protect _) | some (.lock _) | none => p.profiles
    protection := match p.burn with
      | some (.protect _) | some (.lock _) => cutProtection n
      | some (.profile _ _) | none => p.protection
    stage := none
    burn := none }

/-- 10 R169: the word of a write that pin reset cuts off is in any state. -/
def State.cutWrite (s : State) : State :=
  match s.grant with
  | none => s
  | some g =>
    match g.access.write with
    | none => s
    | some w =>
      { s with
        mem := writeBytes s.mem w.addr
          ((List.range 8).map (fun k : Nat => some (Config.cutWriteByte (s.free + k))))
        ecc := if Config.cutWriteBad s.free then setMark s.ecc w.addr .uncorrectable
          else clearMark s.ecc w.addr
        free := s.free + 8 }

/-- PIN_RESET (01 R14, 05 R104, 09 R153, R160, 10 R169, 11 R183, 12 R185, R189): every block is reset; buffer memory and the profile store keep their content but for what was being written; the levels of the input pins and the queue of commands are not the part's; LK_DO is undriven until the next transaction; on release the shadow is loaded. DESIGN CHOICE (notes/assumptions/29.md): LK_SEL_N that stays low keeps its transaction to the receiver, which is in HUNT. -/
def execPinReset (s : State) : Answer :=
  let s := s.cutWrite
  .next { State.reset with
    pins := { Pins.reset with fipFv := s.pins.fipFv, sopRdy := s.pins.sopRdy
                              lkSelected := s.pins.lkSelected }
    mem := s.mem
    ecc := s.ecc
    psc := s.psc.pinReset s.free
    free := s.free + 2
    pending := s.pending }.load

end Sys2Proof.Machine
end

