-- ==== Sys2Proof/Machine/Session.lean ====
section
/-! DEFINITION. The session requests (05): SESSION_ARM, COLUMN_MAP_BUILT, SESSION_START, SESSION_TUNE, SESSION_STOP, SESSION_SUMMARY_GET. -/
namespace Sys2Proof.Machine

/-! ### Arming (05 R82 to R85) -/

/-- 05 R82: a refused ARM names the first field that failed. -/
def State.refuseArm (s : State) (code : ResultCode) (place : Option Nat) : State :=
  s.answer (.refusedField code place)

/-- 05 R80, R83: the previous configuration, held in IDLE only: from ARM to the end of the session the record's configuration is the one in force (notes/assumptions/20.md). -/
def State.previousCodes (s : State) : Option (List Nat) :=
  if s.swc.state = .idle then s.swc.config.map SessionConfig.codes else none

/-- 05 R82 check 3: f16 fits the frame width. -/
def f16Fits (c : SessionConfig) : Bool := decide (8 * c.wf ≤ c.f16 ∧ c.f16 ≤ 256 * c.wf)

/-- 05 R82 check 4: a full circle fits max_strips. -/
def circleFits (c : SessionConfig) : Bool :=
  decide (c.extent = .partialSweep ∨ ceilDiv (103 * c.uc) 12800 + 1 ≤ c.maxStrips)

/-- 05 R82 to R84: what an ARM body comes to in the part as it stands: a refusal, or the configuration to build the map for. -/
def State.armOutcome (s : State) (body : List Byte) :
    Except (ResultCode × Option Nat) SessionConfig :=
  match readArm s.previousCodes 0 armFields body with
  | .error place => .error (.badField, place)
  | .ok values =>
    let slot := (values.getD profileSlotField (.value 0)).get 0
    let shadow := s.psc.shadow.slots.toList.getD slot { valid := false, fields := default }
    let c := (configOf values shadow.fields).slowRule
    if ¬ shadow.valid then .error (.profileInvalid, some profileSlotField)
    else if ¬ f16Fits c then .error (.badField, some profileSlotField)
    else if ¬ circleFits c then .error (.badField, some extentField)
    else .ok c

/-- 05 R82, R85: SESSION.ARM in IDLE or ARMED: refused with its first failing field, or accepted: any column map is discarded and the build begins; the reply waits for it. -/
def State.sessionArm (s : State) (body : List Byte) : State :=
  if s.swc.arming.isSome then s
  else if s.swc.state = .idle ∨ s.swc.state = .armed then
    match s.armOutcome body with
    | .error e => s.refuseArm e.1 e.2
    | .ok c => { s with swc.arming := some c, igu.columnMap := none }
  else s.answerCode .wrongState

/-- SESSION_ARM (05 R82). -/
def execSessionArm (s : State) : Answer := s.execute 0x10#8 s.sessionArm

/-- 05 R81: the next session id. -/
def nextId (id : Nat) : Nat := if id = 65535 then 1 else id + 1

/-- 05 R85 steps 1 to 8 once the map is built. -/
def State.armed (s : State) (c : SessionConfig) : State :=
  let t := { s with
    igu.columnMap := some (buildMap c)
    swc.keys := []
    swc.pendingTunables := none
    swc.decided := none
    swc.config := some c
    swc.id := nextId s.swc.id
    swc.arming := none }
  (t.enterState .armed).answer (.armed t.swc.id c)

/-- 05 R85: the build of the head SESSION.ARM completes; the state has stayed IDLE or ARMED meanwhile. -/
def State.columnMapBuilt (s : State) : State :=
  match s.swc.arming with
  | some c => if s.swc.state = .idle ∨ s.swc.state = .armed then s.armed c else s
  | none => s

/-- COLUMN_MAP_BUILT (05 R85): the SESSION.ARM that is being executed completes. -/
def execColumnMapBuilt (s : State) : Answer := s.execute 0x10#8 (fun _ => s.columnMapBuilt)

/-! ### Starting (05 R88) -/

/-- 05 R88: the direction decided at START. -/
def DirectionChoice.decided : DirectionChoice → Option Direction
  | .auto => none
  | .left => some .left
  | .right => some .right

/-- 05 R88: the state after START. -/
def DirectionChoice.firstState : DirectionChoice → SessionState
  | .auto => .calibrating
  | .left | .right => .sweeping

/-- 05 R80, R88, 01 R14, 04 R73, 07 R124, R126, 08 R152: what START sets. -/
def State.start (s : State) : State :=
  { s with
    igu.lastCounter := none
    igu.nextStored := 0
    igu.dropped := 0
    igu.geoRun := 0
    igu.faultReport := false
    tku.gyro := {}
    tku.held := (0, 0)
    tku.step := (0, 0)
    swc.endCause := none
    swc.decided := s.cfg.direction.decided
    swc.cal := {}
    swc.highWater := none
    swc.stallCount := 0
    swc.pace := {}
    swc.closurePending := false
    swc.framesPerKey := 0
    swc.gyroSinceKey := false
    swc.lastResult := none
    swc.tail := .notMade
    blu.frontier := 0
    blu.mark := none
    blu.entered := 0
    blu.finalEntered := false
    cvm := Cvm.reset }.enterState s.cfg.direction.firstState

/-- 05 R88: SESSION.START: taken in ARMED. -/
def State.sessionStart (s : State) : State :=
  if s.swc.state = .armed then s.start.answerCode .ok else s.answerCode .wrongState

/-- SESSION_START (05 R88). -/
def execSessionStart (s : State) : Answer :=
  s.execute 0x11#8 (fun body => s.withoutFields body s.sessionStart)

/-! ### Tunables, stop, summary -/

/-- 05 R86: a TUNE taken: at once in ARMED, pending in the storing states. -/
def State.sessionTune (s : State) (body : List Byte) : State :=
  match tuneBody body with
  | none => s.answerCode .badField
  | some t =>
    if s.swc.state = .armed then
      { s with swc.config := s.swc.config.map (fun c : SessionConfig => c.tune t) }.answer (.tunables (s.cfg.tune t))
    else if s.storing then { s with swc.pendingTunables := some t }.answer (.pendingSet t)
    else s.answerCode .wrongState

/-- SESSION_TUNE (05 R86). -/
def execSessionTune (s : State) : Answer := s.execute 0x12#8 s.sessionTune

/-- 05 R101: SESSION.STOP: taken in the storing states but in CLOSING with the closure-pending mark set. -/
def State.sessionStop (s : State) : State :=
  if s.storing ∧ ¬ s.swc.closurePending then ((s.endSweep .userStop).answerCode .ok).settle
  else s.answerCode .wrongState

/-- SESSION_STOP (05 R101). -/
def execSessionStop (s : State) : Answer :=
  s.execute 0x13#8 (fun body => s.withoutFields body s.sessionStop)

/-- 05 R105: the canvas width. -/
def State.canvasWidth (s : State) : Int :=
  match s.cvm.um with
  | some um => um
  | none => if s.swc.keys.isEmpty then 0 else placeU s.lastKey.u + s.cfg.wf

/-- 05 R105: the summary record as it stands. -/
def State.summaryRecord (s : State) : SummaryRecord :=
  { id := s.swc.id, endCause := s.swc.endCause, keyCount := s.swc.keys.length
    bridged := (s.swc.keys.filter (fun r => decide (r.source = .bridged))).length
    stored := s.igu.nextStored, dropped := s.igu.dropped, canvasWidth := s.canvasWidth
    sent := s.cvm.sent, discarded := s.cvm.discarded, skipped := s.cvm.skipped
    damaged := s.cvm.damaged, closureResult := s.cvm.closureResult, um := s.cvm.um
    vres := s.cvm.vres }

/-- 05 R105: SESSION.SUMMARY.GET: answered in FINISHING and DONE. -/
def State.sessionSummary (s : State) : State :=
  if s.swc.state = .finishing ∨ s.swc.state = .done then s.answer (.summary s.summaryRecord)
  else s.answerCode .wrongState

/-- SESSION_SUMMARY_GET (05 R105). -/
def execSessionSummaryGet (s : State) : Answer :=
  s.execute 0x16#8 (fun body => s.withoutFields body s.sessionSummary)

end Sys2Proof.Machine
end

