-- ==== Sys2Proof/Machine/Profiles.lean ====
section
/-! DEFINITION. The requests of the profile store and the end of a burn (12): PROFILE_READ, PROFILE_STAGE, PROFILE_BURN, PROFILE_PROTECT, PROFILE_LOCK, PROFILE_RELOAD, BURN_COMPLETE. -/
namespace Sys2Proof.Machine

/-- 12 R184: a burn is running. -/
def State.burning (s : State) : Bool := s.psc.burn.isSome

/-- 12 R190: PROFILE.READ: the name, then BUSY, then the stored record. -/
def State.profileRead (s : State) (body : List Byte) : State :=
  match profileReadBody body with
  | none => s.answerCode .badField
  | some target =>
    if s.burning then s.answerCode .busy
    else match target with
      | .slot i =>
        let r := s.psc.profiles[i]
        s.answer (.profile r.fields (decide (r.crc = profileCrc r.fields)))
      | .protection =>
        let r := s.psc.protection
        s.answer (.protection r.fields (decide (r.crc = protectionCrc r.fields)))

/-- PROFILE_READ (12 R190). -/
def execProfileRead (s : State) : Answer := s.execute 0x30#8 s.profileRead

/-- 12 R186: PROFILE.STAGE: BUSY, then the fields, then the stage buffer takes the record. -/
def State.profileStage (s : State) (body : List Byte) : State :=
  if s.burning then s.answerCode .busy
  else match stageBody body with
    | .error place => s.answer (.refusedField .badField place)
    | .ok f => { s with psc.stage := some f }.answerCode .ok

/-- PROFILE_STAGE (12 R186). -/
def execProfileStage (s : State) : Answer := s.execute 0x31#8 s.profileStage

/-- 12 R187, R188: an accepted burn: the burn state becomes BURNING and the reply OK is built at once. DESIGN CHOICE (notes/assumptions/43.md): what the target record holds while it is being written is open; the model leaves it as it was until BURN_COMPLETE. -/
def State.startBurn (s : State) (job : BurnJob) : State :=
  { s with psc.burn := some job }.answerCode .ok

/-- 12 R187: the six checks of PROFILE.BURN in their order. -/
def State.profileBurn (s : State) (body : List Byte) : State :=
  match profileSlotBody body with
  | none => s.answerCode .badField
  | some slot =>
    match s.psc.stage with
    | none => s.answerCode .notStaged
    | some f =>
      if s.psc.shadow.mask.getLsbD slot.val then s.answerCode .isProtected
      else if slot = 0 ∧ s.psc.shadow.locked then s.answerCode .isLocked
      else if s.swc.state ≠ .idle then s.answerCode .wrongState
      else if s.burning then s.answerCode .busy
      else s.startBurn (.profile slot f)

/-- PROFILE_BURN (12 R187). -/
def execProfileBurn (s : State) : Answer := s.execute 0x32#8 s.profileBurn

/-- 12 R188: the checks that PROTECT and LOCK share, and the burn. -/
def State.protectionBurn (s : State) (job : BurnJob) : State :=
  if s.psc.shadow.locked then s.answerCode .isLocked
  else if s.swc.state ≠ .idle then s.answerCode .wrongState
  else if s.burning then s.answerCode .busy
  else s.startBurn job

/-- 12 R188: PROFILE.PROTECT burns the mask given with factory_locked 0. -/
def State.profileProtect (s : State) (body : List Byte) : State :=
  match protectBody body with
  | none => s.answerCode .badField
  | some mask => s.protectionBurn (.protect { mask := mask, locked := false })

/-- PROFILE_PROTECT (12 R188). -/
def execProfileProtect (s : State) : Answer := s.execute 0x33#8 s.profileProtect

/-- PROFILE_LOCK (12 R188): burns the shadow's mask with factory_locked 1. -/
def execProfileLock (s : State) : Answer :=
  s.execute 0x34#8 (fun body => s.withoutFields body
    (s.protectionBurn (.lock { mask := s.psc.shadow.mask, locked := true })))

/-- 12 R185: PROFILE.RELOAD: BUSY, then the state, then the load. -/
def State.profileReload (s : State) : State :=
  if s.burning then s.answerCode .busy
  else if s.swc.state ≠ .idle then s.answerCode .wrongState
  else s.load.answer (.shadow s.load.psc.shadow)

/-- PROFILE_RELOAD (12 R185). -/
def execProfileReload (s : State) : Answer :=
  s.execute 0x35#8 (fun body => s.withoutFields body s.profileReload)

/-! ### The end of a burn (12 R189) -/

/-- 12 R189: the read-back matches: the record is stored, the stage buffer is emptied after a profile burn, and a BURN notice OK is queued. -/
def State.burnMatched (s : State) (job : BurnJob) : State :=
  let t := { s with psc.burn := none }
  let t := match job with
    | .profile slot f =>
      { t with psc.profiles := t.psc.profiles.set slot { fields := f, crc := profileCrc f }
               psc.stage := none }
    | .protect f | .lock f => { t with psc.protection := { fields := f, crc := protectionCrc f } }
  t.notify (.burn s.swc.id job true)

/-- 12 R189: a mismatch: BURN_FAILED is set and a BURN notice FAILED is queued; the stage buffer is kept. -/
def State.burnFailed (s : State) (job : BurnJob) : State :=
  ({ s with psc.burn := none }.setBurnFailed true).notify (.burn s.swc.id job false)

/-- 12 R189: a profile record read back. -/
def State.profileReadBack (s : State) (job : BurnJob) (slot : Fin 4) (meant f : ProfileFields)
    (crc : BitVec 16) : State :=
  let r : StoredProfile := { fields := f, crc := badCrc (profileCrc f) crc }
  if f = meant ∧ crc = profileCrc meant then s.burnMatched job
  else { s with psc.profiles := s.psc.profiles.set slot r }.burnFailed job

/-- 12 R189: a protection record read back. -/
def State.protectionReadBack (s : State) (job : BurnJob) (meant f : ProtectionFields)
    (crc : BitVec 16) : State :=
  let r : StoredProtection := { fields := f, crc := badCrc (protectionCrc f) crc }
  if f = meant ∧ crc = protectionCrc meant then s.burnMatched job
  else { s with psc.protection := r }.burnFailed job

/-- BURN_COMPLETE (12 R189): what the read-back finds decides; with no burn running, or with a record of the other kind, there is nothing to complete. -/
def execBurnComplete (found : ReadBack) (s : State) : Answer :=
  match s.psc.burn with
  | none => .next s
  | some job =>
    match found, job with
    | .asMeant, _ => .next (s.burnMatched job)
    | .profile f crc, .profile slot meant => .next (s.profileReadBack job slot meant f crc)
    | .protection f crc, .protect meant => .next (s.protectionReadBack job meant f crc)
    | .protection f crc, .lock meant => .next (s.protectionReadBack job meant f crc)
    | .profile _ _, .protect _ | .profile _ _, .lock _ | .protection _ _, .profile _ _ => .next s

end Sys2Proof.Machine
end

