-- ==== Sys2Proof/Machine/Dispatch.lean ====
section
/-! DEFINITION. Which meaning each command has: one arm per row of spec/opcode_table.json. -/
namespace Sys2Proof.Machine

/-- The effect of a command on everything but the queue of commands. -/
def exec (i : Instr) (s : State) : Host.Outcome State Fault Refusal :=
  match i with
  | .headerLine fv beats => Sys2Proof.Machine.execHeaderLine fv beats s
  | .pictureLine fv tag beats => Sys2Proof.Machine.execPictureLine fv tag beats s
  | .frameEnd => Sys2Proof.Machine.execFrameEnd s
  | .frameAbort => Sys2Proof.Machine.execFrameAbort s
  | .inputFault => Sys2Proof.Machine.execInputFault s
  | .prepareComplete => Sys2Proof.Machine.execPrepareComplete s
  | .trackStart => Sys2Proof.Machine.execTrackStart s
  | .searchComplete => Sys2Proof.Machine.execSearchComplete s
  | .calibrationDecision => Sys2Proof.Machine.execCalibrationDecision s
  | .calibrationTimeout => Sys2Proof.Machine.execCalibrationTimeout s
  | .noSweep => Sys2Proof.Machine.execNoSweep s
  | .stalled => Sys2Proof.Machine.execStalled s
  | .trackLocked => Sys2Proof.Machine.execTrackLocked s
  | .trackLost => Sys2Proof.Machine.execTrackLost s
  | .patchLost => Sys2Proof.Machine.execPatchLost s
  | .paceChange => Sys2Proof.Machine.execPaceChange s
  | .closureAccepted => Sys2Proof.Machine.execClosureAccepted s
  | .selectionComplete => Sys2Proof.Machine.execSelectionComplete s
  | .takeKey => Sys2Proof.Machine.execTakeKey s
  | .keyLimit => Sys2Proof.Machine.execKeyLimit s
  | .tailKeyDecision => Sys2Proof.Machine.execTailKeyDecision s
  | .finalKeyMark => Sys2Proof.Machine.execFinalKeyMark s
  | .seamJobDone => Sys2Proof.Machine.execSeamJobDone s
  | .closureJobBegin => Sys2Proof.Machine.execClosureJobBegin s
  | .commitEnter => Sys2Proof.Machine.execCommitEnter s
  | .finalCommitEnter => Sys2Proof.Machine.execFinalCommitEnter s
  | .stripOpenRequest => Sys2Proof.Machine.execStripOpenRequest s
  | .commitComplete => Sys2Proof.Machine.execCommitComplete s
  | .memoryAccessComplete outcome => Sys2Proof.Machine.execMemoryAccessComplete outcome s
  | .transferStart => Sys2Proof.Machine.execTransferStart s
  | .sopLineStart => Sys2Proof.Machine.execSopLineStart s
  | .sopRdyChange level => Sys2Proof.Machine.execSopRdyChange level s
  | .transferComplete => Sys2Proof.Machine.execTransferComplete s
  | .cutTrailerDone => Sys2Proof.Machine.execCutTrailerDone s
  | .linkTransactionStart => Sys2Proof.Machine.execLinkTransactionStart s
  | .messageSent => Sys2Proof.Machine.execMessageSent s
  | .linkTransactionEnd tail => Sys2Proof.Machine.execLinkTransactionEnd tail s
  | .requestReceived bytes => Sys2Proof.Machine.execRequestReceived bytes s
  | .requestDispatch => Sys2Proof.Machine.execRequestDispatch s
  | .unknownType => Sys2Proof.Machine.execUnknownType s
  | .identGet => Sys2Proof.Machine.execIdentGet s
  | .statusGet => Sys2Proof.Machine.execStatusGet s
  | .faultClear => Sys2Proof.Machine.execFaultClear s
  | .sessionArm => Sys2Proof.Machine.execSessionArm s
  | .columnMapBuilt => Sys2Proof.Machine.execColumnMapBuilt s
  | .sessionStart => Sys2Proof.Machine.execSessionStart s
  | .sessionTune => Sys2Proof.Machine.execSessionTune s
  | .sessionStop => Sys2Proof.Machine.execSessionStop s
  | .sessionAbort => Sys2Proof.Machine.execSessionAbort s
  | .sessionRelease => Sys2Proof.Machine.execSessionRelease s
  | .sessionSummaryGet => Sys2Proof.Machine.execSessionSummaryGet s
  | .keyGet => Sys2Proof.Machine.execKeyGet s
  | .stripGet => Sys2Proof.Machine.execStripGet s
  | .gyroPut => Sys2Proof.Machine.execGyroPut s
  | .outputResumeRetry => Sys2Proof.Machine.execOutputResumeRetry s
  | .outputResumeSkip => Sys2Proof.Machine.execOutputResumeSkip s
  | .profileRead => Sys2Proof.Machine.execProfileRead s
  | .profileStage => Sys2Proof.Machine.execProfileStage s
  | .profileBurn => Sys2Proof.Machine.execProfileBurn s
  | .profileProtect => Sys2Proof.Machine.execProfileProtect s
  | .profileLock => Sys2Proof.Machine.execProfileLock s
  | .profileReload => Sys2Proof.Machine.execProfileReload s
  | .burnComplete found => Sys2Proof.Machine.execBurnComplete found s
  | .engineReset => Sys2Proof.Machine.execEngineReset s
  | .pinReset => Sys2Proof.Machine.execPinReset s
  | .linkFrameDiscard bytes => Sys2Proof.Machine.execLinkFrameDiscard bytes s

end Sys2Proof.Machine
end

