-- ==== Sys2Proof/Safety.lean ====
section
/-! DEFINITION. What a safe run keeps, in the terms the statements use: the invariants of the part, the commands that may do a thing, and when a request is the one being executed. -/
namespace Sys2Proof.Machine

/-! ### Invariants -/

/-- Buffer memory and its error marks are in their canonical form (10 R161, R165). -/
def State.MemoryCanonical (s : State) : Prop := Memory.wf s.mem = true ∧ keysAbove 0 s.ecc = true

/-- 11 R173, R174, R176: the queues of the link keep within their places, and the head that is executed exists. -/
def State.LinkBounded (s : State) : Prop :=
  s.lku.requests.length ≤ 8 ∧ s.lku.placesTaken ≤ 9 ∧ s.lku.notices.length ≤ 16
    ∧ (s.lku.executing = true → s.lku.requests ≠ [])

/-- 03 R48: a pair of gyro sums within its range. -/
def Gyro.InRange (g : Gyro) : Prop :=
  -2000000 ≤ g.yaw ∧ g.yaw ≤ 2000000 ∧ -2000000 ≤ g.pitch ∧ g.pitch ≤ 2000000

/-- 03 R48, R49: the gyro accumulator and every snapshot taken from it are within range. -/
def State.GyroInRange (s : State) : Prop :=
  s.tku.gyro.InRange ∧ ∀ (i : Fin 8) (r : FrameRecord), s.igu.slots[i].record = some r → r.snapshot.InRange

/-- 01 R8, R9, 04 R73, 06 R106, 07 R122, 08 R137, 09 R153: the counts that hold are within their ranges, and the seam job queue and the commit queue within their places. -/
def State.CountsHold (s : State) : Prop :=
  s.smu.queue.length ≤ 2 ∧ s.blu.queue.length ≤ 2 ∧ s.igu.dropped ≤ 65535 ∧ s.igu.geoRun ≤ 8 ∧ s.swc.framesPerKey ≤ 65535 ∧ s.cvm.discarded ≤ 65535
    ∧ s.cvm.skipped ≤ 65535 ∧ s.cvm.sent ≤ 65535 ∧ s.cvm.damaged ≤ 65535 ∧ s.opu.number ≤ 65535

/-- 09 R153, R154, R160: SOP_FV is high exactly while OPU is SENDING or CUTTING, and SOP_LV is low while it is IDLE or HALTED. The beat reached lies within the line on the port (R156). -/
def State.PortLevels (s : State) : Prop :=
  (s.pins.sopFv = true ↔ s.opu.state = .sending ∨ s.opu.state = .cutting)
    ∧ (s.opu.state = .idle ∨ s.opu.state = .halted → s.pins.sopLv = false)
    ∧ s.pins.sopBeat ≤ s.pins.sopLine.length

/-- 01 R10, R13: outside the storing states no slot is FILLING, FILLED-WAIT or QUEUED. -/
def State.RingFollowsSession (s : State) : Prop :=
  s.storing = false →
    ∀ i : Fin 8, s.slotState i ≠ .filling ∧ s.slotState i ≠ .filledWait ∧ s.slotState i ≠ .queued

/-- 01 R10, 04 R71, 05 R90, R99: the limits of the ring, with what they rest on: a PREPARING slot is that of the running pass, a TRACKING slot that of the tracking operation, a KEY slot that of a key or of the provisional reference; a provisional reference is there in calibration only, where there is no key; before a START there is neither a slot in use nor a frame in tracking nor a key; a tail key waits after the sweep only. -/
structure State.RingLimits (s : State) : Prop where
  filling : ∀ i j : Fin 8, s.slotState i = .filling → s.slotState j = .filling → i = j
  preparing : ∀ i : Fin 8, s.slotState i = .preparing → ∃ p, s.igu.prep = some p ∧ p.slot = i
  tracking : ∀ i : Fin 8, s.slotState i = .tracking → ∃ op, s.tku.op = some op ∧ op.slot = i
  last : ∀ i j : Fin 8, s.slotState i = .last → s.slotState j = .last → i = j
  pinned : s.pinnedSlots.length ≤ 3
  key : ∀ i : Fin 8, s.slotState i = .key → s.heldAsKey i = true
  reference : s.swc.cal.provisional ≠ none → s.swc.state = .calibrating ∨ s.swc.state = .recalibrating
  calibration : s.swc.state = .calibrating ∨ s.swc.state = .recalibrating → s.swc.keys = []
  timeout : ∀ op, s.tku.op = some op → op.stage = .calTimeoutDue → s.swc.keys = []
  taking : ∀ op, s.tku.op = some op →
    (∃ kind, op.stage = .keyWaiting kind) ∨ (∃ um vres, op.stage = .closureDue um vres) →
    s.swc.state ≠ .calibrating ∧ s.swc.state ≠ .recalibrating
  waiting : s.swc.tail = .waiting → s.swc.state = .finishing ∨ s.swc.state = .done
  rest : s.swc.state = .idle ∨ s.swc.state = .armed →
    (∀ i : Fin 8, s.slotState i = .free) ∧ s.tku.op = none ∧ s.swc.keys = []

/-- 05 R100, 08 R145: the work of FINISHING is done: no frame in tracking, no prepare pass, an empty output queue, and, where there is a key, the final key marked, the session's last commit completed and no seam job or commit left. -/
def State.FinishingDone (s : State) : Prop :=
  s.tku.op = none ∧ s.igu.prep = none ∧ s.cvm.outQueue = []
    ∧ (s.swc.keys = []
      ∨ s.blu.mark ≠ none ∧ s.cvm.lastCommit = true ∧ s.smu.queue = [] ∧ s.blu.queue = [])

/-- 05 R100: FINISHING lasts only as long as its work does. -/
def State.FinishingHasWork (s : State) : Prop := s.swc.state = .finishing → ¬ s.FinishingDone

/-- 12 R187: a profile burn that runs has an unprotected target, and slot 0 only while the shadow is not locked. -/
def State.BurnAllowed (s : State) : Prop :=
  ∀ (i : Fin 4) (f : ProfileFields), s.psc.burn = some (.profile i f) →
    s.psc.shadow.mask.getLsbD i.val = false ∧ (i = 0 → s.psc.shadow.locked = false)

/-! ### What a command may change -/

/-- The blocks of State: the units of the part, the pins, the memory controller's grant, buffer memory with its error marks, the counter of free values and the queue of commands. -/
inductive Block where
  | pins | igu | tku | swc | smu | blu | cvm | opu | grant | mem | ecc | lku | psc | free | pending
  deriving DecidableEq, Repr

/-- A block is the same in two states. -/
def Block.Same (s t : State) : Block → Prop
  | .pins => t.pins = s.pins
  | .igu => t.igu = s.igu
  | .tku => t.tku = s.tku
  | .swc => t.swc = s.swc
  | .smu => t.smu = s.smu
  | .blu => t.blu = s.blu
  | .cvm => t.cvm = s.cvm
  | .opu => t.opu = s.opu
  | .grant => t.grant = s.grant
  | .mem => t.mem = s.mem
  | .ecc => t.ecc = s.ecc
  | .lku => t.lku = s.lku
  | .psc => t.psc = s.psc
  | .free => t.free = s.free
  | .pending => t.pending = s.pending

/-- Every block outside a list is the same in two states. -/
def SameOutside (l : List Block) (s t : State) : Prop := ∀ b : Block, b ∉ l → Block.Same s t b

/-- What a step that ends a unit's work may change beside that unit: FINISHING may become DONE (SWC, a SESSION notice, a LAST slot given up), and a waiting access may be granted. -/
def settleBlocks : List Block := [.igu, .swc, .lku, .grant]

/-- The blocks that each command may change. -/
def touches : Instr → List Block
  | .headerLine _ _ | .pictureLine _ _ _ | .frameEnd => .pins :: .tku :: settleBlocks
  | .frameAbort => .tku :: settleBlocks
  | .inputFault | .prepareComplete | .sessionStop => settleBlocks
  | .trackStart | .selectionComplete | .calibrationDecision | .calibrationTimeout | .noSweep
  | .stalled | .keyLimit => .tku :: settleBlocks
  | .searchComplete | .patchLost | .trackLocked | .trackLost | .closureAccepted | .takeKey =>
    .tku :: .smu :: .cvm :: settleBlocks
  | .paceChange => .tku :: .cvm :: settleBlocks
  | .tailKeyDecision | .closureJobBegin => .smu :: settleBlocks
  | .finalKeyMark | .finalCommitEnter => .blu :: settleBlocks
  | .seamJobDone | .commitEnter => .smu :: .blu :: settleBlocks
  | .stripOpenRequest => .blu :: .cvm :: .opu :: settleBlocks
  | .commitComplete => .blu :: .cvm :: settleBlocks
  | .memoryAccessComplete _ => [.igu, .tku, .smu, .blu, .cvm, .opu, .grant, .mem, .ecc, .lku]
  | .transferStart => .pins :: .cvm :: .opu :: settleBlocks
  | .sopLineStart => .pins :: .opu :: settleBlocks
  | .sopRdyChange _ => [.pins]
  | .transferComplete => .pins :: .blu :: .cvm :: .opu :: settleBlocks
  | .cutTrailerDone => [.pins, .opu]
  | .linkTransactionStart | .linkTransactionEnd _ => [.pins, .lku]
  | .messageSent | .requestReceived _ | .linkFrameDiscard _ | .requestDispatch | .unknownType
  | .identGet | .statusGet | .faultClear | .sessionSummaryGet | .keyGet | .stripGet
  | .profileRead => [.lku]
  | .sessionArm | .columnMapBuilt => [.igu, .swc, .lku]
  | .sessionTune => [.swc, .lku]
  | .sessionStart => [.igu, .tku, .swc, .blu, .cvm, .lku]
  | .gyroPut => [.tku, .lku]
  | .outputResumeRetry => .cvm :: .opu :: settleBlocks
  | .outputResumeSkip => .blu :: .cvm :: .opu :: settleBlocks
  | .sessionRelease => [.igu, .tku, .swc, .blu, .cvm, .lku]
  | .sessionAbort | .engineReset => [.pins, .igu, .tku, .swc, .smu, .blu, .cvm, .opu, .grant, .lku]
  | .profileStage | .profileBurn | .profileProtect | .profileLock | .profileReload
  | .burnComplete _ => [.psc, .lku]
  | .pinReset =>
    [.pins, .igu, .tku, .swc, .smu, .blu, .cvm, .opu, .grant, .mem, .ecc, .lku, .psc, .free]

/-- The commands that clear the key table (04 R60). -/
def clearsKeys : Instr → Bool
  | .columnMapBuilt | .sessionAbort | .sessionRelease | .engineReset | .pinReset => true
  | _ => false

/-! ### Requests -/

/-- 11 R173: the head request is dispatched: its type, tag and body, and the requests behind it. -/
def State.Executes (s : State) (type tag : Byte) (body : List Byte) (rest : List Request) : Prop :=
  s.lku.executing = true ∧ s.lku.requests = { type := type, tag := tag, body := body } :: rest

/-- 11 R173: the link unit once the head request is answered: the request has left its queue and its reply has joined the reply queue. -/
def Lku.answered (l : Lku) (rest : List Request) (type tag : Byte) (body : ReplyBody) : Lku :=
  { l with
    requests := rest
    executing := false
    replies := l.replies ++ [{ type := type, tag := tag, body := body }] }

/-- Nothing changes but the answer: the reply of a refusal or of a query. -/
def State.answeredOnly (s : State) (rest : List Request) (type tag : Byte) (body : ReplyBody) : State :=
  { s with lku := s.lku.answered rest type tag body }

/-- 11 R176: in a step from `s` to `t` a notice takes the next sequence number and is queued; with 16 notices queued it is dropped and NOTICE_LOST is set. -/
def State.Noticed (s t : State) (b : NoticeBody) : Prop :=
  (s.lku.notices.length < 16 → ∃ n ∈ t.lku.notices, n.seq = s.lku.seq ∧ n.body = b)
    ∧ (16 ≤ s.lku.notices.length → t.lku.flags.noticeLost = true)

/-- 11 R176: in a step from `s` to `t` that queues two notices, the second takes the number after the next and is queued; without a second place it is dropped and NOTICE_LOST is set. -/
def State.NoticedNext (s t : State) (b : NoticeBody) : Prop :=
  (s.lku.notices.length < 15 → ∃ n ∈ t.lku.notices, n.seq = s.lku.seq + 1#8 ∧ n.body = b)
    ∧ (15 ≤ s.lku.notices.length → t.lku.flags.noticeLost = true)

/-- 08 R139, R149: `r` is the record that strip `j` opens with. -/
def State.Fresh (s : State) (j : Nat) (r : Strip) : Prop :=
  r.index = j ∧ r.state = .opened ∧ r.holes = 0 ∧ r.damaged = false ∧ r.error = false
    ∧ (s.cvm.um = none → r.width = 128 ∧ r.last = false ∧ r.wrap = false)
    ∧ ∀ um : Int, s.cvm.um = some um →
      (j = ((um - 1) / 128).toNat → r.width = (um - 128 * (j : Int)).toNat ∧ r.last = true)
      ∧ (j ≠ ((um - 1) / 128).toNat → r.width = 128 ∧ r.last = false)
      ∧ (r.wrap = true ↔ um ≤ 128 * (j : Int))

/-- 08 R149, 09 R153: strip `j` has been SENDING: the transfer record counts it (notes/assumptions/18.md); while OPU is CUTTING the record is that of a strip already cleared. -/
def State.sentBefore (s : State) (j : Nat) : Bool :=
  decide (s.opu.state ≠ .cutting ∧ s.opu.xfer.map Transfer.strip = some j)

/-! ### What a step leaves -/

/-- 03 R57, R58: the search radius for a lock state, with the session state and S in force. -/
def State.radiusFor (s : State) (lock : LockState) : Nat :=
  if lock = .lost ∨ s.swc.state = .recalibrating then min (2 * s.cfg.radius) 24 else s.cfg.radius

/-- 04 R72 steps 1 and 3 to 7, 05 R87, 06 R107: `v` is the part once key `k` has been taken, in a storing state, from the frame that operation `op` tracked with result `r`: the record is added, the leading selection asked for, TKU rebased, the seam job of the pair queued, which begins on entering an empty queue, the pending tunables applied and the two counts cleared. The KEY notice in the link unit is stated beside it. -/
def State.KeyTaken (s v : State) (op : TrackOp) (r : FrameResult) (k : KeyRecord) : Prop :=
  v = { s with
      tku := { s.tku with
        op := some { op with selections := op.selections ++ [{ kind := .leading, slot := op.slot }] }
        held := (s.tku.held.1 - r.au, s.tku.held.2 - r.av) }
      swc := { s.swc with
        keys := s.swc.keys ++ [k]
        config := match s.swc.pendingTunables with
          | some u => s.swc.config.map (fun c => c.tune u)
          | none => s.swc.config
        pendingTunables := none
        framesPerKey := 0
        gyroSinceKey := false }
      smu := v.smu
      lku := v.lku }
    ∧ v.smu.queue = s.smu.queue ++ [.ordinary s.swc.keys.length]
    ∧ (s.smu.queue = [] → v.smu.run = some (s.smu.run.getD {}))
    ∧ (s.smu.run ≠ none → v.smu.run = s.smu.run)

/-- 07 R125, R126, R135: `hi` is the end of the span of commit `c`: 8 columns before the least entry of the key's seam, the right edge of the key where the seam is absent and for a final commit, min(Up, Um) + Wf for the closure commit. -/
def State.SpanEnds (s : State) (c : Commit) (hi : Int) : Prop :=
  ∀ q, s.swc.keys[c.key]? = some q →
    (c.kind = .ordinary → ∀ l m, q.seam = some l → m ∈ l → (∀ x ∈ l, m ≤ x) → hi = m - 8)
    ∧ (c.kind = .ordinary → q.seam = none → hi = placeU q.u + s.cfg.wf)
    ∧ (c.kind = .final → hi = placeU q.u + s.cfg.wf)
    ∧ (c.kind = .closure → ∀ um, s.cvm.um = some um → hi = min (placeU q.u) um + s.cfg.wf)

/-- 07 R123, R124, R127: in `t` commit `c` has just begun: BLU is WRITING, the span runs from the frontier to its end, but never ends before the frontier (notes/assumptions/38.md), the column mapping is fixed, and no column has been reached. -/
def State.CommitBegun (t : State) (c : Commit) : Prop :=
  t.blu.state = .writing ∧ ∃ hi, t.SpanEnds c hi
    ∧ t.blu.run = some
      { spanLo := t.blu.frontier, spanHi := max t.blu.frontier hi
        wrap := if t.cfg.extent = .fullCircle then t.cvm.um else none
        cursor := t.blu.frontier, rd := {}, part := none }

/-- 06 R107, R119: in `t` a seam job has just left the queue: an ordinary job that is now at the head has begun, and a closure job waits. -/
def State.NextSeamBegun (t : State) : Prop :=
  (∀ k more, t.smu.queue = .ordinary k :: more → t.smu.run = some {})
    ∧ (∀ n more, t.smu.queue = .closure n :: more → t.smu.run = none)
    ∧ (t.smu.queue = [] → t.smu.run = none)

/-- 09 R159: from `s` to `t` an OUTPUT.RESUME has ended the halt: OPU is IDLE with its transfer record kept, the OUTPUT_HALTED condition is cleared, the reply is OK, BLU goes on as before, and while FINISHING has work left nothing else changes but the strip records and the grant; no notice is queued. -/
def State.HaltEnded (s t : State) (rest : List Request) (tag : Byte) : Prop :=
  t.opu = { s.opu with state := .idle } ∧ t.blu = s.blu
    ∧ t.lku.conds = { s.lku.conds with outputHalted := false } ∧ t.lku.requests = rest
    ∧ t.lku.replies = s.lku.replies ++ [{ type := 0xA1#8, tag := tag, body := .result .ok }]
    ∧ (s.FinishingHasWork → t = { s with
        opu.state := .idle
        cvm := t.cvm
        grant := t.grant
        lku := { (s.lku.answered rest 0xA1#8 tag (.result .ok)) with conds.outputHalted := false } })

/-! ### The link and the bodies of the session requests -/

/-- 11 R170: the part with `n` further bytes of the transaction shifted out. -/
def State.shifted (s : State) : Nat → State
  | 0 => s
  | n + 1 => s.shiftByte.shifted n

/-- A field of the ARM body in the table of 05 R83. -/
structure ArmRow where
  /-- The bytes of the field (11 R171). -/
  bytes : Nat
  /-- Whether a value outside the range is clamped; otherwise it is refused. -/
  clamped : Bool
  lo : Nat
  hi : Nat
  /-- The default, where the table gives one. -/
  default : Option Nat

/-- 05 R82, R83: the table of the fields of the ARM body, Wf before Hf and fill_y before fill_c. -/
def armTable : List ArmRow :=
  [⟨2, false, 320, 2048, none⟩, ⟨2, false, 256, 1536, none⟩, ⟨1, false, 0, 3, none⟩, ⟨1, false, 0, 2, some 0⟩,
   ⟨1, false, 0, 1, some 0⟩, ⟨1, false, 0, 1, some 0⟩, ⟨1, false, 0, 1, some 1⟩, ⟨1, true, 20, 60, some 40⟩,
   ⟨1, true, 2, 12, some 6⟩, ⟨1, true, 0, 25, some 10⟩, ⟨1, true, 1, 8, some 3⟩, ⟨1, true, 2, 32, some 8⟩,
   ⟨1, true, 15, 240, some 45⟩, ⟨1, true, 1, 8, some 2⟩, ⟨1, true, 4, 120, some 20⟩, ⟨2, true, 15, 600, some 90⟩,
   ⟨2, true, 0, 65535, some 960⟩, ⟨1, true, 1, 64, some 12⟩, ⟨2, true, 0, 65535, some 512⟩,
   ⟨2, true, 8, 1024, some 512⟩, ⟨1, true, 0, 255, some 16⟩, ⟨1, true, 0, 255, some 128⟩]

/-- 11 R171, 05 R83: a marked field of `n` bytes. -/
def FieldMark.bytes (n : Nat) : FieldMark → List Byte
  | .value v => 0#8 :: field n v
  | .useDefault => [1#8]
  | .usePrevious => [2#8]
  | .useProfile => [3#8]

/-- 05 R82: the body of SESSION.ARM that gives each field as it is marked. -/
def armBytes (marks : List FieldMark) : List Byte := ((armTable.zip marks).map (fun e => e.2.bytes e.1.bytes)).flatten

/-- 05 R86: the row of the tunable at a place of R86's list: overlap_pct, S, lock_count, coast_limit, fast_frames, slow_frames, stall_frames. -/
def tuneRow (place : Nat) : Option ArmRow :=
  ([7, 8, 10, 11, 13, 14, 15][place]?).bind (fun i : Nat => armTable[i]?)

/-- 11 R171, 05 R86: a tunable, by its place, and its value. -/
def tuneItem (e : Nat × Nat) : List Byte :=
  BitVec.ofNat 8 e.1 :: field ((tuneRow e.1).elim 0 ArmRow.bytes) e.2

/-- 05 R86: every item names a tunable, with a value of the field's bytes. -/
def TuneItems (items : List (Nat × Nat)) : Prop :=
  ∀ e ∈ items, ∃ row, tuneRow e.1 = some row ∧ e.2 < 256 ^ row.bytes

/-- 05 R83, R86: what a TUNE of these items gives the tunable at a place: its value, clamped to its range; of several the last (notes/assumptions/24.md). -/
def tunedTo (items : List (Nat × Nat)) (place : Nat) : Option Nat :=
  ((items.filter (fun e => decide (e.1 = place))).getLast?).bind (fun e =>
    (tuneRow place).map (fun row => max row.lo (min row.hi e.2)))

/-- 05 R82 check 1, R83: what the field at a place of the body comes to (outer none: the check fails; inner none: texture_min of the named profile). `prev` is the previous configuration, where one is held. Wf and Hf are also multiples of 64. -/
def armField (prev : Option (List Nat)) (place : Nat) (row : ArmRow) : FieldMark → Option (Option Nat)
  | .value v =>
    if row.clamped then some (some (max row.lo (min row.hi v)))
    else if row.lo ≤ v ∧ v ≤ row.hi ∧ (place < 2 → v % 64 = 0) then some (some v) else none
  | .useDefault => row.default.map some
  | .usePrevious => (prev.bind (fun l => l[place]?)).map some
  | .useProfile => if place = 16 then some none else none

/-- 04 R61: what SWC writes of a key at its taking and nothing changes afterwards. -/
def KeyRecord.SameTaking (a b : KeyRecord) : Prop :=
  a.index = b.index ∧ a.stored = b.stored ∧ a.u = b.u ∧ a.v = b.v ∧ a.advance = b.advance
    ∧ a.source = b.source ∧ a.inliers = b.inliers ∧ a.exposure = b.exposure

/-- 11 R179: every event flag set in `a` is set in `b`. -/
def EventFlags.Within (a b : EventFlags) : Prop :=
  (a.linkError = true → b.linkError = true) ∧ (a.requestLost = true → b.requestLost = true)
    ∧ (a.noticeLost = true → b.noticeLost = true) ∧ (a.frameDropped = true → b.frameDropped = true)
    ∧ (a.eccError = true → b.eccError = true)

end Sys2Proof.Machine
end

