-- ==== Sys2Proof/Certificates/Slice0/Obligations.lean ====
section
/-! DEFINITION. The statements for the provers. Each docstring names the rule of spec/ that the statement formalises, or says that it is about the model. -/

open Sys2Proof Sys2Proof.Machine

/-! ### The machine -/

/-- The model's own (notes/assumptions/1.md, notes/assumptions/22.md): a step takes the command at the front of the queue; with an empty queue one beat's time passes on the strip output port, in which the part otherwise idles: nothing changes while SOP_RDY is low, and nothing while OPU presents no line and has none to begin. -/
def Obligations.StepRunsFront : Prop :=
  (∀ (c : Instr) (rest : List Instr) (s : State), s.pending = c :: rest →
      step s = exec c { s with pending := rest })
    ∧ (∀ s : State, s.pending = [] → step s = .next s.tick)
    ∧ (∀ s : State, s.pending = [] → s.pins.sopRdy = false → step s = .next s)
    ∧ ∀ s : State, s.pending = [] → s.pins.sopLv = false → s.opu.state = .idle ∨ s.opu.state = .halted →
      step s = .next s

/-- The model's own: every command but MEMORY_ACCESS_COMPLETE answers a next state, that one answers a next state or the fault of 10 R161, and no command changes the queue. -/
def Obligations.ExecTotalKeepsQueue : Prop :=
  (∀ (c : Instr) (s : State), (∃ t, exec c s = .next t)
      ∨ ((∃ o, c = .memoryAccessComplete o) ∧ exec c s = .fault .noSuchAddress))
    ∧ ∀ (c : Instr) (s t : State), exec c s = .next t → t.pending = s.pending

/-- The frame of every command, block by block: what a command does not touch (Safety.lean's table of the blocks each may change) is the same afterwards. Buffer memory among it: it changes only when an access completes, or when pin reset cuts a write off (10 R162, R169). -/
def Obligations.BlocksUntouched : Prop :=
  (∀ (c : Instr) (s t : State), exec c s = .next t → SameOutside (touches c) s t)
    ∧ ∀ (c : Instr) (s t : State), (∀ o, c ≠ .memoryAccessComplete o) → c ≠ .pinReset →
      exec c s = .next t → ∀ a, readByte t.mem a = readByte s.mem a

/-- The canonical form of buffer memory and of its error marks is kept by every step. The form is the model's own (notes/assumptions/7.md). -/
def Obligations.MemoryCanonicalKept : Prop :=
  ∀ s t : State, s.MemoryCanonical → step s = .next t → t.MemoryCanonical

/-- 11 R173, R174, R176: the queues of the link keep within 8 requests, 9 reply places and 16 notices, at every step. -/
def Obligations.LinkBoundedKept : Prop :=
  ∀ s t : State, s.LinkBounded → step s = .next t → t.LinkBounded

/-- 03 R48, R49: the gyro sums and the snapshots taken from them stay within -2,000,000..+2,000,000, at every step. -/
def Obligations.GyroRangeKept : Prop :=
  ∀ s t : State, s.GyroInRange → step s = .next t → t.GyroInRange

/-- 01 R8, R9, 04 R73, 06 R106, 07 R122, 08 R137, 09 R153: the counts that hold stay within their ranges, and the seam job queue and the commit queue within 2 places, at every step. -/
def Obligations.CountsHoldKept : Prop :=
  ∀ s t : State, s.CountsHold → step s = .next t → t.CountsHold

/-- 09 R153, R154, R160: SOP_FV and SOP_LV follow the state of OPU, at every step. -/
def Obligations.PortLevelsKept : Prop :=
  ∀ s t : State, s.PortLevels → step s = .next t → t.PortLevels

/-- 01 R10, R13: outside the storing states no slot is FILLING, FILLED-WAIT or QUEUED, at every step; and at every step at most one slot is FILLING, at most one PREPARING, at most one TRACKING, at most one LAST, and at most three are KEY, with what these limits rest on (Safety.lean). That a slot which becomes KEY when its frame's selections complete counts as one is deduced (notes/assumptions/9.md). -/
def Obligations.RingFollowsSessionKept : Prop :=
  (∀ s t : State, s.RingFollowsSession → step s = .next t → t.RingFollowsSession)
    ∧ (∀ s t : State, s.RingLimits → step s = .next t → t.RingLimits)
    ∧ ∀ s : State, s.RingLimits → (s.slotsIn .filling).length ≤ 1 ∧ (s.slotsIn .preparing).length ≤ 1
      ∧ (s.slotsIn .tracking).length ≤ 1 ∧ (s.slotsIn .last).length ≤ 1 ∧ (s.slotsIn .key).length ≤ 3

/-- 12 R187: no burn that runs has a target whose shadow protection bit is set, nor slot 0 while the shadow factory lock is set, at every step. -/
def Obligations.BurnAllowedKept : Prop :=
  ∀ s t : State, s.BurnAllowed → step s = .next t → t.BurnAllowed

/-- The state after reset meets every invariant of the statements above. -/
def Obligations.ResetMeetsInvariants : Prop :=
  State.reset.MemoryCanonical ∧ State.reset.LinkBounded ∧ State.reset.GyroInRange ∧ State.reset.CountsHold
    ∧ State.reset.PortLevels ∧ State.reset.RingFollowsSession ∧ State.reset.BurnAllowed
    ∧ State.reset.RingLimits ∧ State.reset.FinishingHasWork

/-- 05 R81: the session id changes only at COLUMN_MAP_BUILT, where an accepted ARM counts it on (65,535 is followed by 1), and at pin reset, which makes it 0. -/
def Obligations.SessionIdChanges : Prop :=
  (∀ (c : Instr) (s t : State), c ≠ .columnMapBuilt → c ≠ .pinReset → exec c s = .next t →
      t.swc.id = s.swc.id)
    ∧ (∀ s t : State, exec .columnMapBuilt s = .next t →
        t.swc.id = s.swc.id ∨ t.swc.id = (if s.swc.id = 65535 then 1 else s.swc.id + 1))
    ∧ ∀ s t : State, exec .pinReset s = .next t → t.swc.id = 0

/-- 12 R184, R187, R189: the store changes only when a burn completes or pin reset cuts one off, and the shadow only at a load. That the target record keeps what it held while a burn runs is the model's choice (notes/assumptions/43.md). -/
def Obligations.StoreAndShadowChange : Prop :=
  (∀ (c : Instr) (s t : State), (∀ f, c ≠ .burnComplete f) → c ≠ .pinReset → exec c s = .next t →
      t.psc.profiles = s.psc.profiles ∧ t.psc.protection = s.psc.protection)
    ∧ ∀ (c : Instr) (s t : State), c ≠ .profileReload → c ≠ .pinReset → exec c s = .next t →
        t.psc.shadow = s.psc.shadow

/-- 11 R179: an event flag once set stays set until STATUS_GET reports it or pin reset clears it. -/
def Obligations.EventFlagsStay : Prop :=
  ∀ (c : Instr) (s t : State), c ≠ .statusGet → c ≠ .pinReset → exec c s = .next t →
    s.lku.flags.Within t.lku.flags

/-- 04 R60, R61: records are added at the end of the key table and never reordered, and what SWC wrote of a key at its taking stays, until the table is cleared. -/
def Obligations.KeysOnlyAdded : Prop :=
  ∀ (c : Instr) (s t : State), clearsKeys c = false → exec c s = .next t →
    ∀ (k : Nat) (r : KeyRecord), s.swc.keys[k]? = some r →
      ∃ r', t.swc.keys[k]? = some r' ∧ r'.SameTaking r

/-- 00 R1: a quotient is rounded to the nearest integer, a half away from zero; for non-negative integers it is floor((2a + b) / (2b)); ceil rounds up. -/
def Obligations.RoundingToNearest : Prop :=
  (∀ a b : Int, 0 < b → 2 * ((a - b * roundDiv a b).natAbs : Int) ≤ b
      ∧ (2 * ((a - b * roundDiv a b).natAbs : Int) = b → a.natAbs ≤ (b * roundDiv a b).natAbs))
    ∧ (∀ a b : Nat, 0 < b → roundDiv (a : Int) (b : Int) = ((2 * a + b) / (2 * b) : Nat))
    ∧ ∀ a b : Int, 0 < b → a ≤ b * ceilDiv a b ∧ b * ceilDiv a b < a + b

/-! ### Frame ingest -/

/-- 01 R4 step 6, 03 R49: a header line of a new frame, with no slot FILLING and a FREE slot, makes the lowest FREE slot FILLING with the counter, the exposure and the gyro accumulator, which is left cleared. Nothing else changes but the port's level and the grant. 01 R2: with FIP_FV low the line is ignored. 01 R4 steps 1 to 4: a FILLING frame is truncated first (R7: dropped as ABORTED) and the line is then treated as a frame start; outside the storing states it is ignored; with fewer than 4 beats it is a GEOMETRY reject, which counts in the run and at 8 raises the INPUT_FAULT report; with the last stored counter it is a DUPLICATE. That the writes waiting for a truncated frame are withdrawn is deduced (notes/assumptions/13.md). -/
def Obligations.HeaderLineTakesSlot : Prop :=
  (∀ (s : State) (b1 b2 b3 : Beat) (more : List Beat) (i : Fin 8),
    s.storing = true → s.firstIn .filling = none → s.firstIn .free = some i →
    s.igu.lastCounter ≠ some (b1.setWidth 8) →
    ∃ t, exec (.headerLine true (b1 :: b2 :: b3 :: more)) s = .next t
      ∧ t = { s with
          pins.fipFv := true
          igu := { s.igu with
            slots := s.igu.slots.set i
              { state := .filling
                record := some { counter := b1.setWidth 8, exposure := b2.toNat, snapshot := s.tku.gyro
                                 stored := none, interval := none } }
            linesCounted := 0
            misShaped := false }
          tku.gyro := { yaw := 0, pitch := 0, received := false }
          grant := t.grant })
  ∧ (∀ (s : State) (beats : List Beat), exec (.headerLine false beats) s = .next { s with pins.fipFv := false })
  ∧ (∀ (s : State) (beats : List Beat) (i : Fin 8) (r : FrameRecord),
    s.storing = true → s.slotsIn .filling = [i] → s.igu.slots[i].record = some r →
    ∃ u, exec (.headerLine true beats) s = exec (.headerLine true beats) u
      ∧ u.igu.slots = s.igu.slots.set i {} ∧ u.tku.gyro = s.tku.gyro.handBack r.snapshot
      ∧ u.igu.dropped = min 65535 (s.igu.dropped + 1) ∧ u.igu.geoRun = s.igu.geoRun
      ∧ u.igu.lineBuffers = s.igu.lineBuffers.filter (fun b => decide (b.slot ≠ i))
      ∧ u = { s with igu := u.igu, tku.gyro := u.tku.gyro, lku.flags.frameDropped := true, grant := u.grant })
  ∧ (∀ (s : State) (beats : List Beat), s.storing = false → s.firstIn .filling = none →
    exec (.headerLine true beats) s = .next ({ s with pins.fipFv := true } : State).settle)
  ∧ (∀ (s : State) (beats : List Beat), s.storing = true → s.firstIn .filling = none → beats.length < 3 →
    ∃ t, exec (.headerLine true beats) s = .next t
      ∧ t = { s with
          pins.fipFv := true
          igu := { s.igu with
            geoRun := if s.igu.geoRun < 8 then s.igu.geoRun + 1 else s.igu.geoRun
            faultReport := s.igu.faultReport || decide (s.igu.geoRun = 7) }
          grant := t.grant })
  ∧ ∀ (s : State) (b1 b2 b3 : Beat) (more : List Beat),
    s.storing = true → s.firstIn .filling = none → s.igu.lastCounter = some (b1.setWidth 8) →
    ∃ t, exec (.headerLine true (b1 :: b2 :: b3 :: more)) s = .next t
      ∧ t = { s with pins.fipFv := true, grant := t.grant }

/-- 01 R5, 10 R163: a picture line of a FILLING frame, of a row of the frame and Wf beats long, with a line buffer free, is counted and its samples take a line buffer. Nothing else changes but the port's level and the grant. A line of any other kind is counted as well: a line that is not Wf long or is malformed marks the frame mis-shaped, a malformed line and a line beyond Hf-1 are not stored, and a short line stores what it carries; each stored beat's low byte lies in a write of its place in the raw luma row; of an even line each stored beat's high byte lies in a write of its place in the raw Cb row, on an even column, or in the raw Cr row, on an odd one; an odd line is written to the luma row alone; and every write of a line is of a whole word (10 R167). With both line buffers still to be written a picture line overruns: the frame is dropped as ABORTED. 01 R2: with FIP_FV low, and with no frame FILLING, the line is ignored. That a malformed line takes a row number, and what a whole-word write puts beyond a line's end, are the model's choices (notes/assumptions/39.md, notes/assumptions/40.md). -/
def Obligations.PictureLineStores : Prop :=
  (∀ (s : State) (beats : List Beat) (i : Fin 8),
    s.storing = true → s.firstIn .filling = some i → s.igu.lineBuffers.length < 2 →
    s.igu.linesCounted < s.cfg.hf → beats.length = s.cfg.wf →
    ∃ t, exec (.pictureLine true pictureTag beats) s = .next t
      ∧ t = { s with
          pins.fipFv := true
          igu := { s.igu with
            linesCounted := s.igu.linesCounted + 1
            lineBuffers :=
              addLine i (lineWrites i s.cfg.wf s.igu.linesCounted beats) s.igu.lineBuffers }
          grant := t.grant })
  ∧ (∀ (s : State) (tag : Beat) (beats : List Beat) (i : Fin 8),
    s.storing = true → s.firstIn .filling = some i → tag ≠ pictureTag ∨ s.igu.lineBuffers.length < 2 →
    ∃ t, exec (.pictureLine true tag beats) s = .next t
      ∧ t = { s with
          pins.fipFv := true
          igu := { s.igu with
            linesCounted := s.igu.linesCounted + 1
            misShaped := s.igu.misShaped || decide (tag ≠ pictureTag ∨ beats.length ≠ s.cfg.wf)
            lineBuffers :=
              if tag = pictureTag ∧ s.igu.linesCounted < s.cfg.hf then
                addLine i (lineWrites i s.cfg.wf s.igu.linesCounted beats) s.igu.lineBuffers
              else s.igu.lineBuffers }
          grant := t.grant })
  ∧ (∀ (i : Fin 8) (wf r : Nat) (beats : List Beat),
    (∀ w ∈ lineWrites i wf r beats, w.bytes.length = 8 ∧ w.whole = true)
    ∧ ∀ (c : Nat) (b : Beat), c < wf → beats[c]? = some b →
      ∃ w ∈ lineWrites i wf r beats, ∃ k, w.addr + k = rawLumaAddr i c r
        ∧ w.bytes[k]? = some (some (b.setWidth 8)))
  ∧ (∀ (i : Fin 8) (wf r : Nat) (beats : List Beat),
    (r % 2 = 0 → ∀ (c : Nat) (b : Beat), c < wf → beats[c]? = some b →
      ∃ w ∈ lineWrites i wf r beats, ∃ k,
        w.addr + k = (if c % 2 = 0 then rawCbAddr i (c / 2) (r / 2) else rawCrAddr i (c / 2) (r / 2))
        ∧ w.bytes[k]? = some (some ((b >>> (8 : Nat)).setWidth 8)))
    ∧ (r % 2 = 1 → ∀ w ∈ lineWrites i wf r beats, ∃ k : Nat, w.addr = rawLumaAddr i (8 * k) r))
  ∧ (∀ (s : State) (beats : List Beat) (i : Fin 8) (r : FrameRecord),
    s.storing = true → s.firstIn .filling = some i → s.igu.slots[i].record = some r →
    2 ≤ s.igu.lineBuffers.length →
    ∃ t, exec (.pictureLine true pictureTag beats) s = .next t ∧ t.igu.slots = s.igu.slots.set i {}
      ∧ t.tku.gyro = s.tku.gyro.handBack r.snapshot ∧ t.igu.dropped = min 65535 (s.igu.dropped + 1)
      ∧ t.igu.lineBuffers = s.igu.lineBuffers.filter (fun b => decide (b.slot ≠ i))
      ∧ t.igu.linesCounted = s.igu.linesCounted
      ∧ t = { s with pins.fipFv := true, igu := t.igu, tku.gyro := t.tku.gyro, lku.flags.frameDropped := true
                     grant := t.grant })
  ∧ (∀ (s : State) (tag : Beat) (beats : List Beat),
    exec (.pictureLine false tag beats) s = .next { s with pins.fipFv := false })
  ∧ ∀ (s : State) (tag : Beat) (beats : List Beat), s.firstIn .filling = none →
    exec (.pictureLine true tag beats) s = .next { s with pins.fipFv := true }

/-- 01 R6, R9, R11, 03 R49: at frame end a frame of Hf lines that is not mis-shaped is accepted: it takes the next stored number and its interval, and its slot waits for or begins its prepare pass; any other FILLING frame is rejected: its slot is FREE, its snapshot is handed back and it counts in the geometry run, which at 8 raises the INPUT_FAULT report. That a granted line write then completes for no one is deduced (notes/assumptions/13.md). -/
def Obligations.FrameEnds : Prop :=
  ∀ (s : State) (i : Fin 8) (r : FrameRecord),
    s.storing = true → s.firstIn .filling = some i → s.igu.slots[i].record = some r →
    (s.igu.misShaped = false → s.igu.linesCounted = s.cfg.hf →
      ∃ t, exec .frameEnd s = .next t
        ∧ t.igu.slots = s.igu.slots.set i
            { state := if s.igu.prep = none then .preparing else .filledWait
              record := some { r with
                stored := some s.igu.nextStored
                interval := some (match s.igu.lastCounter with
                  | some l => (r.counter - l).toNat
                  | none => 1) } }
        ∧ t.igu.nextStored = s.igu.nextStored + 1 ∧ t.igu.lastCounter = some r.counter
        ∧ t.igu.geoRun = 0 ∧ t = { s with pins.fipFv := false, igu := t.igu, grant := t.grant })
    ∧ (s.igu.misShaped = true ∨ s.igu.linesCounted ≠ s.cfg.hf → s.igu.geoRun < 8 →
      ∃ t, exec .frameEnd s = .next t ∧ t.igu.slots = s.igu.slots.set i {}
        ∧ t.igu.geoRun = s.igu.geoRun + 1
        ∧ t.igu.faultReport = (s.igu.faultReport || decide (s.igu.geoRun + 1 = 8))
        ∧ t.tku.gyro = s.tku.gyro.handBack r.snapshot
        ∧ t = { s with pins.fipFv := false, igu := t.igu, tku.gyro := t.tku.gyro, grant := t.grant })

/-- 01 R7, R8, 03 R49: FIP_ABT drops the FILLING frame as ABORTED: its slot is FREE, its snapshot is handed back, the dropped count rises and holds at 65,535, and FRAME_DROPPED is set. 01 R8: a new frame that finds no FREE slot is dropped with cause RING_FULL, counted and flagged the same, and changes no slot. That the waiting line writes are withdrawn is deduced (notes/assumptions/13.md). -/
def Obligations.FramesDropped : Prop :=
  (∀ (s : State) (i : Fin 8) (r : FrameRecord),
    s.storing = true → s.firstIn .filling = some i → s.igu.slots[i].record = some r →
    ∃ t, exec .frameAbort s = .next t ∧ t.igu.slots = s.igu.slots.set i {}
      ∧ t.tku.gyro = s.tku.gyro.handBack r.snapshot
      ∧ t.igu.dropped = min 65535 (s.igu.dropped + 1) ∧ t.lku.flags.frameDropped = true
      ∧ t = { s with igu := t.igu, tku.gyro := t.tku.gyro, lku.flags.frameDropped := true, grant := t.grant })
  ∧ ∀ (s : State) (b1 b2 b3 : Beat) (more : List Beat),
    s.storing = true → s.firstIn .filling = none → s.firstIn .free = none →
    s.igu.lastCounter ≠ some (b1.setWidth 8) →
    ∃ t, exec (.headerLine true (b1 :: b2 :: b3 :: more)) s = .next t
      ∧ t = { s with
          pins.fipFv := true
          igu.dropped := min 65535 (s.igu.dropped + 1)
          lku.flags.frameDropped := true
          grant := t.grant }

/-- 01 R9, 05 R89, R98, R99: with the closure-pending mark clear, IGU's report ends the sweep with INPUT_FAULT and a SESSION notice; with the mark set it has no effect. The step is held due until its command comes, which is the model's choice (notes/assumptions/10.md). -/
def Obligations.InputFaultEndsSweep : Prop :=
  (∀ s : State, s.igu.faultReport = true → s.storing = true → s.swc.closurePending = false →
    ∃ t, exec .inputFault s = .next t ∧ t.igu.faultReport = false
      ∧ t.swc.endCause = some .inputFault
      ∧ (t.swc.state = .finishing ∨ t.swc.state = .done) ∧ t.swc.keys = s.swc.keys
      ∧ s.Noticed t (.session s.swc.id s.swc.state .finishing (some .inputFault) s.swc.decided
          s.swc.keys.length s.igu.nextStored))
  ∧ ∀ s : State, s.igu.faultReport = true → s.swc.closurePending = true →
    exec .inputFault s = .next { s with igu.faultReport := false }

/-- 01 R11, R13: a prepare pass that has made its reads and writes ends: its slot becomes QUEUED in a storing state, and the oldest FILLED-WAIT slot begins its pass; outside the storing states its slot becomes FREE. That a pass reads before it writes is the model's choice (notes/assumptions/6.md). -/
def Obligations.PrepareCompletes : Prop :=
  ∀ (s : State) (p : Prep),
    s.igu.prep = some p → s.slotState p.slot = .preparing →
    nextRead (prepareReads (s.prepView p)) p.rd = none →
    (prepareWrites (s.prepView p) s.cfg.wt s.cfg.ht).length ≤ p.written →
    (s.storing = true → ∃ t, exec .prepareComplete s = .next t
      ∧ t.igu.prep = (s.oldestIn .filledWait).map (fun j => { slot := j })
      ∧ t.slotState p.slot = .queued
      ∧ t = { s with igu := t.igu, grant := t.grant })
    ∧ (s.storing = false → s.slotsIn .filledWait = [] →
      ∃ t, exec .prepareComplete s = .next t ∧ t.igu.prep = none ∧ t.slotState p.slot = .free)

/-! ### Tracking -/

/-- 01 R11, 02 R30, 03 R53: with no tracking operation in progress TKU takes the oldest QUEUED slot: it becomes TRACKING, the search runs at the radius in force (03 R57: the configured one, or twice that and at most 24 while the detector is LOST or the session RECALIBRATING), and the prediction is the held estimate moved by the gyro, or by the velocity step over the interval. 08 R146: in CLOSING, and only there, the closure prediction is formed from it and the current reference. -/
def Obligations.TrackStartTakesOldest : Prop :=
  ∀ (s : State) (i : Fin 8) (r : FrameRecord) (n : Nat),
    s.tku.op = none → s.oldestIn .queued = some i → s.igu.slots[i].record = some r →
    r.interval = some n →
    ∃ t op, exec .trackStart s = .next t ∧ t.tku.op = some op ∧ op.slot = i
      ∧ op.stage = .searching
      ∧ op.radius = (if s.tku.lock.state = .lost ∨ s.swc.state = .recalibrating then min (2 * s.cfg.radius) 24
          else s.cfg.radius)
      ∧ (s.cfg.gyroUse = false ∨ r.snapshot.received = false →
          op.pu = s.tku.held.1 + s.tku.step.1 * n ∧ op.pv = s.tku.held.2 + s.tku.step.2 * n)
      ∧ (s.cfg.gyroUse = true → r.snapshot.received = true →
          op.pu = s.tku.held.1 + roundDiv (r.snapshot.yaw * s.cfg.f16) 4000000
          ∧ op.pv = s.tku.held.2 - roundDiv (r.snapshot.pitch * s.cfg.f16) 4000000)
      ∧ (op.cpred.isSome = true ↔ s.swc.state = .closing)
      ∧ (s.swc.state = .closing → op.cpred = some
          (roundDiv (s.sgn * (s.lastKey.u + 4 * s.sgn * op.pu - 16 * s.cfg.uc)) 4,
           roundDiv (s.lastKey.v + 4 * op.pv + 16 * (s.cfg.mrows : Int)) 4))
      ∧ t = { (s.setSlotState i .tracking) with tku.op := some op, grant := t.grant }

/-- 02 R38, 03 R41 to R47, R51, R52, R56, R58: a search that has made its reads without a memory error ends: the report of each set gives its consensus, the result used and the miss counts; with a third miss the frame waits for PATCH_LOST, else the velocity step, the held estimate and the lock detector take their values, a change of lock state is noticed with the radius of R57 for the state after it, and SWC decides on the frame result. 04 R66 to R70, 05 R90, R94, R98: what SWC decides on a frame result: in SWEEPING and CLOSING reversal, gap, the key tests and the canvas limit in their order, the first stored frame as key 0, and in FINISHING nothing but the move to LAST. 08 R147: a qualifying closure frame with run 0 makes the run 1 and is decided as any other. 04 R72: a key taken at once makes steps 1 and 3 to 7 with a KEY notice, then step 5 of R66 with the values in force after them, or at key 63 leaves KEY_LIMIT due. A frame that becomes no key goes on with step 5 of R66 (Obligations.DueStepsTaken), and with nothing due and nothing to select its slot becomes LAST with its result kept (01 R12). A step that the table lists on its own is held due, and a KEY slot is reached when the selections complete, which are the model's choices (notes/assumptions/9.md, notes/assumptions/10.md). -/
def Obligations.SearchEnds : Prop :=
  (∀ (s : State) (op : TrackOp) (report creport : List (Option PatchOutcome)) (c : Consensus)
      (used : (Int × Int) × ResultSource) (losses : List (Bool × Nat)) (i : Nat),
    s.tku.op = some op → op.stage = .searching → s.nextSearchRead = none → op.rd.failed = [] →
    report = (s.searchView op false).report s.tku.mainSet →
    creport = (s.searchView op true).report s.tku.closureSet →
    c = consensusOf report → used = resultUsed c op.pu op.pv →
    losses = (missCount s.tku.mainSet report).2.map (fun id => (false, id))
      ++ (if op.cpred.isSome then (missCount s.tku.closureSet creport).2.map (fun id => (true, id)) else []) →
    i = ((s.igu.slots[op.slot].record.bind FrameRecord.interval).getD 1) →
    ∃ t op', exec .searchComplete s = .next t
      ∧ op' = { op with main := c, used := used.1, source := used.2
                        closure := if op.cpred.isSome then some (consensusOf creport) else op.closure }
      ∧ t.tku.mainSet = (missCount s.tku.mainSet report).1
      ∧ t.tku.closureSet
          = (if op.cpred.isSome then (missCount s.tku.closureSet creport).1 else s.tku.closureSet)
      ∧ (losses ≠ [] → t = { s with
          tku := { s.tku with
            mainSet := t.tku.mainSet
            closureSet := t.tku.closureSet
            op := some { op' with stage := .patchesDue losses } }
          grant := t.grant })
      ∧ (losses = [] →
          t.tku.step = (if c.cls = .none then s.tku.step
            else (roundDiv (used.1.1 - s.tku.held.1) i, roundDiv (used.1.2 - s.tku.held.2) i))
          ∧ (t.tku.held = used.1 ∨ t.tku.held = (0, 0))
          ∧ (c.cls = .good →
              (s.tku.lock.state = .acquiring ∨ s.tku.lock.state = .lost →
                t.tku.lock = { s.tku.lock with goodRun := s.tku.lock.goodRun + 1 }
                ∧ (s.cfg.lockCount ≤ s.tku.lock.goodRun + 1 → t.tku.op = some { op' with stage := .lockedDue }))
              ∧ (s.tku.lock.state = .locked → t.tku.lock = s.tku.lock)
              ∧ (s.tku.lock.state = .coasting →
                t.tku.lock = { s.tku.lock with state := .locked, missRun := 0 }
                ∧ s.Noticed t (.track s.swc.id (s.storedOf op.slot) .coasting .locked c.cls c.m c.n
                  (s.radiusFor .locked))))
          ∧ (c.cls ≠ .good →
              (s.tku.lock.state = .acquiring ∨ s.tku.lock.state = .lost →
                t.tku.lock = { s.tku.lock with goodRun := 0 })
              ∧ (s.tku.lock.state = .locked →
                t.tku.lock = { s.tku.lock with state := .coasting, missRun := 1 }
                ∧ s.Noticed t (.track s.swc.id (s.storedOf op.slot) .locked .coasting c.cls c.m c.n
                  (s.radiusFor .coasting)))
              ∧ (s.tku.lock.state = .coasting →
                t.tku.lock = { s.tku.lock with missRun := s.tku.lock.missRun + 1 }
                ∧ (s.cfg.coastLimit ≤ s.tku.lock.missRun + 1 → t.tku.op = some { op' with stage := .lostDue })))
          ∧ (t.tku.op ≠ some { op' with stage := .lockedDue } → t.tku.op ≠ some { op' with stage := .lostDue } →
              ∃ (u : State) (r : FrameResult), exec .searchComplete s = .next (u.decideFrame r).settle
              ∧ u.tku.op = some { op' with result := some r, stage := .finished }
              ∧ u.swc = s.swc ∧ u.igu = s.igu ∧ u.tku.held = used.1
              ∧ r = { stored := s.storedOf op.slot
                      interval := (s.igu.slots[op.slot].record.getD default).interval.getD 1
                      cls := c.cls, source := used.2, au := used.1.1, av := used.1.2, m := c.m, n := c.n
                      memory := false, inView := activeCount t.tku.mainSet, lock := t.tku.lock.state
                      su := t.tku.step.1, sv := t.tku.step.2
                      gyroMark := (s.igu.slots[op.slot].record.getD default).snapshot.received
                      closure := op'.closure })))
  ∧ (∀ (s : State) (r : FrameResult),
    (s.keyTests r = some .normal
      ↔ (r.cls = .good ∨ r.cls = .weak) ∧ r.lock ≠ .lost ∧ s.cfg.atAdv ≤ s.sgn * r.au)
    ∧ (s.keyTests r = some .forced ↔ s.keyTests r ≠ some .normal
      ∧ (r.cls = .good ∨ r.cls = .weak) ∧ r.inView < 3 ∧ s.cfg.atAdv / 2 ≤ s.sgn * r.au)
    ∧ (s.keyTests r = some .bridged ↔ s.keyTests r ≠ some .normal ∧ s.keyTests r ≠ some .forced
      ∧ r.lock = .lost ∧ s.cfg.gyroUse = true ∧ s.swc.gyroSinceKey = true ∧ s.cfg.atAdv ≤ s.sgn * r.au
      ∧ s.lastKey.source ≠ .bridged)
    ∧ s.keyTests r ≠ some .closure)
  ∧ (∀ (s : State) (op : TrackOp) (r : FrameResult) (u m : Int) (offered : Prop) (run : Nat),
    s.tku.op = some op → s.swc.keys ≠ [] →
    (offered ↔ 0 ≤ s.sgn * r.au ∧ s.closureMeasure (s.positionOf r) r ≠ none) →
    s.swc.state = .sweeping ∨ s.swc.state = .closing ∧ (offered → s.cvm.closureRun ≠ 1) →
    (s.swc.state = .sweeping → run = s.cvm.closureRun) →
    (s.swc.state = .closing → (offered → run = 1) ∧ (¬ offered → run = 0)) →
    u = s.lastKey.u + 4 * s.sgn * r.au → m = s.swc.highWater.getD u →
    (m - u > 4 * s.cfg.wf → (s.decideFrame r).swc.endCause = some .reversed
      ∧ (s.decideFrame r).swc.state = .finishing ∧ (s.decideFrame r).swc.keys = s.swc.keys
      ∧ (op.selections = [] → s.heldAsKey op.slot = false → (s.decideFrame r).slotState op.slot = .last))
    ∧ (m - u ≤ 4 * s.cfg.wf → s.sgn * r.au > s.cfg.amax → (s.decideFrame r).swc.endCause = some .gap
      ∧ (s.decideFrame r).swc.state = .finishing ∧ (s.decideFrame r).swc.keys = s.swc.keys
      ∧ (op.selections = [] → s.heldAsKey op.slot = false → (s.decideFrame r).slotState op.slot = .last))
    ∧ (m - u ≤ 4 * s.cfg.wf → s.sgn * r.au ≤ s.cfg.amax → ∀ kind,
      (s.countFrame r).keyTests r = some kind →
      (placeU u + s.cfg.wf > 128 * s.cfg.maxStrips → (s.decideFrame r).swc.endCause = some .limit
        ∧ (s.decideFrame r).swc.state = .finishing ∧ (s.decideFrame r).swc.keys = s.swc.keys
        ∧ (op.selections = [] → s.heldAsKey op.slot = false → (s.decideFrame r).slotState op.slot = .last))
      ∧ (placeU u + s.cfg.wf ≤ 128 * s.cfg.maxStrips → s.keyResources = true →
        ∃ k, (s.decideFrame r).swc.keys = s.swc.keys ++ [k] ∧ k.index = s.swc.keys.length
          ∧ k.stored = r.stored ∧ k.slot = some op.slot ∧ k.u = u ∧ k.v = s.lastKey.v + 4 * r.av
          ∧ k.advance = u - s.lastKey.u ∧ k.inliers = r.m ∧ k.state = .pinned
          ∧ k.source = (if kind = .bridged then .bridged else if r.cls = .good then .image else .blend)
          ∧ (k.flags.forced = true ↔ kind = .forced) ∧ (k.flags.weak = true ↔ r.lock ≠ .locked)
          ∧ s.Noticed (s.decideFrame r) (.key s.swc.id k.index k.stored k.u k.v (placeU k.u) (placeV k.v)
              k.advance k.source k.flags k.inliers (min 65535 (s.swc.framesPerKey + 1)))
          ∧ ∃ v, ({ s with cvm.closureRun := run } : State).KeyTaken v { op with position := s.positionOf r } r k
            ∧ (k.index = 63 → s.decideFrame r = v.setStage .keyLimitDue)
            ∧ (k.index ≠ 63 → s.decideFrame r = v.paceStep { op with position := s.positionOf r } r))
      ∧ (placeU u + s.cfg.wf ≤ 128 * s.cfg.maxStrips → s.keyResources = false →
        (s.decideFrame r).swc.keys = s.swc.keys ∧ (s.decideFrame r).igu = s.igu
        ∧ ∃ o, (s.decideFrame r).tku.op = some o ∧ o.stage = .keyWaiting kind))
    ∧ (m - u ≤ 4 * s.cfg.wf → s.sgn * r.au ≤ s.cfg.amax → (s.countFrame r).keyTests r = none →
      (s.decideFrame r).swc.keys = s.swc.keys ∧ (s.decideFrame r).swc.decided = s.swc.decided
      ∧ s.decideFrame r = ({ s with
          tku.op := some { op with position := s.positionOf r }
          swc.framesPerKey := min 65535 (s.swc.framesPerKey + 1)
          swc.gyroSinceKey := s.swc.gyroSinceKey || r.gyroMark
          cvm.closureRun := run } : State).paceStep
            { op with position := s.positionOf r } r
      ∧ (∀ o, (s.decideFrame r).tku.op = some o →
          o.stage = .paceDue ∨ o.stage = .stalledDue ∨ o.stage = .finished ∧ op.selections ≠ [])
      ∧ (op.selections = [] → s.heldAsKey op.slot = false → (s.decideFrame r).tku.op = none →
          (s.decideFrame r).slotState op.slot = .last ∧ (s.decideFrame r).swc.lastResult = op.result)))
  ∧ (∀ (s : State) (op : TrackOp) (r : FrameResult),
    s.tku.op = some op → s.swc.state = .sweeping → s.swc.keys = [] →
    ∃ k, (s.decideFrame r).swc.keys = [k] ∧ k.index = 0 ∧ k.slot = some op.slot ∧ k.u = 0
      ∧ k.v = -(16 * (s.cfg.mrows : Int)) ∧ k.gain = some 256 ∧ k.inliers = r.m ∧ k.source = .image
      ∧ (s.decideFrame r).swc.highWater = some 0 ∧ (s.decideFrame r).swc.state = .sweeping
      ∧ (s.decideFrame r).igu = s.igu
      ∧ ∃ o, (s.decideFrame r).tku.op = some o ∧ o.stage = .finished
        ∧ o.selections = op.selections ++ [{ kind := .leading, slot := op.slot }]
          ++ (if s.cfg.extent = .fullCircle then [{ kind := .closure, slot := op.slot }] else []))
  ∧ ∀ (s : State) (op : TrackOp) (r : FrameResult),
    s.tku.op = some op → s.swc.state = .finishing → op.selections = [] → s.heldAsKey op.slot = false →
    (s.decideFrame r).slotState op.slot = .last ∧ (s.decideFrame r).tku.op = none
      ∧ (s.decideFrame r).swc.lastResult = op.result ∧ (s.decideFrame r).swc.keys = s.swc.keys

/-- 02 R37, 03 R52: a memory-error frame counts no miss and leaves both patch sets and the velocity step as they were. -/
def Obligations.MemoryErrorFrame : Prop :=
  ∀ (s : State) (op : TrackOp), s.tku.op = some op → op.stage = .searching → op.rd.failed ≠ [] →
    ∃ t, exec .searchComplete s = .next t ∧ t.tku.mainSet = s.tku.mainSet
      ∧ t.tku.closureSet = s.tku.closureSet ∧ t.tku.step = s.tku.step ∧ t.tku.gyro = s.tku.gyro

/-- 02 R38: a patch whose miss count has reached 3 becomes LOST with its count held at 2; no other record changes. 03 R56, R58: a good run at lock_count makes the detector LOCKED, a miss run at coast_limit makes it LOST; both runs become 0, and a TRACK notice is queued with the radius of R57 for the state after the change. The step is held due until its command comes, which is the model's choice (notes/assumptions/10.md). -/
def Obligations.PatchAndLockSteps : Prop :=
  (∀ (s : State) (op : TrackOp) (id : Nat) (rest : List (Bool × Nat)),
    s.tku.op = some op →
    (op.stage = .patchesDue ((false, id) :: rest) → ∃ t, exec .patchLost s = .next t
      ∧ t.tku.mainSet = s.tku.mainSet.modify id (fun p => { p with state := .lost, miss := 2 })
      ∧ t.tku.closureSet = s.tku.closureSet)
    ∧ (op.stage = .patchesDue ((true, id) :: rest) → ∃ t, exec .patchLost s = .next t
      ∧ t.tku.closureSet = s.tku.closureSet.modify id (fun p => { p with state := .lost, miss := 2 })
      ∧ t.tku.mainSet = s.tku.mainSet))
  ∧ ∀ (s : State) (op : TrackOp), s.tku.op = some op →
    (op.stage = .lockedDue → ∃ t, exec .trackLocked s = .next t
      ∧ t.tku.lock = { state := .locked, goodRun := 0, missRun := 0 }
      ∧ s.Noticed t (.track s.swc.id (s.storedOf op.slot) s.tku.lock.state .locked op.main.cls
          op.main.m op.main.n (s.radiusFor .locked)))
    ∧ (op.stage = .lostDue → ∃ t, exec .trackLost s = .next t
      ∧ t.tku.lock = { state := .lost, goodRun := 0, missRun := 0 }
      ∧ s.Noticed t (.track s.swc.id (s.storedOf op.slot) s.tku.lock.state .lost op.main.cls
          op.main.m op.main.n (s.radiusFor .lost)))

/-- 02 R22, R23: a selection that has made its reads replaces the set of its kind whole and leaves the other; with nothing left to select and SWC's decision made, the tracking operation is complete. 01 R12, 02 R23: until then every slot stays as it is, the tracked one TRACKING; at completion the slot of a frame that the decision made a key or the provisional reference becomes KEY, that of any other frame becomes LAST with its result kept for the tail-key decision, and another LAST slot becomes FREE. The order of the reads is the model's choice (notes/assumptions/6.md), and how R23 stands to R72 and R99 is deduced (notes/assumptions/9.md). -/
def Obligations.SelectionReplacesSet : Prop :=
  ∀ (s : State) (op : TrackOp) (sel : Selection) (rest : List Selection),
    s.tku.op = some op → op.selections = sel :: rest → op.stage ≠ .searching →
    nextRead (s.selectionView sel).run.words sel.rd = none →
    ∃ t, exec .selectionComplete s = .next t
      ∧ (sel.kind = .closure → t.tku.closureSet = (s.selectionView sel).run.set
          ∧ t.tku.mainSet = s.tku.mainSet)
      ∧ (sel.kind ≠ .closure → t.tku.mainSet = (s.selectionView sel).run.set
          ∧ t.tku.closureSet = s.tku.closureSet)
      ∧ (t.tku.op = none ↔ rest = [] ∧ op.stage = .finished)
      ∧ t.tku.gyro = s.tku.gyro ∧ t.tku.lock = s.tku.lock ∧ t.tku.held = s.tku.held
      ∧ t.swc.keys = s.swc.keys
      ∧ (¬ (rest = [] ∧ op.stage = .finished) → t.igu = s.igu ∧ t.swc = s.swc
          ∧ t.tku.op = some { op with selections := rest })
      ∧ (rest = [] → op.stage = .finished → s.storing = true ∨ s.swc.keys ≠ [] →
          (s.swc.cal.provisional = some op.slot ∨ (∃ k ∈ s.swc.keys, k.slot = some op.slot) →
            t.slotState op.slot = .key ∧ t.swc.lastResult = s.swc.lastResult)
          ∧ (s.swc.cal.provisional ≠ some op.slot → (∀ k ∈ s.swc.keys, k.slot ≠ some op.slot) →
            t.slotState op.slot = .last ∧ t.swc.lastResult = op.result)
          ∧ ∀ j : Fin 8, j ≠ op.slot →
            t.slotState j = (if s.slotState j = .last then .free else s.slotState j))

/-! ### SWC's decisions -/

/-- 05 R91, 04 R75: two qualifying frames of one sign settle the direction: the provisional reference becomes key 0 at the origin with gain 256, a KEY notice (R73) and then a SESSION notice (R89) are queued, the leading selection and in a FULL_CIRCLE session the closure selection are asked for, pending tunables are applied, the high-water mark is the deciding frame's position and the session is SWEEPING; the deciding frame's slot stays TRACKING until the selections complete and then becomes LAST (02 R23; Obligations.SelectionReplacesSet says so of every frame). 05 R90: what SWC does with a frame tracked in CALIBRATING or RECALIBRATING: without a reference it becomes the reference, with one it is counted and judged, and the decision or the timeout becomes due. The steps are held due until their command comes, and when the slot moves is deduced, which are the model's choices (notes/assumptions/9.md, notes/assumptions/10.md). -/
def Obligations.CalibrationDecides : Prop :=
  (∀ (s : State) (op : TrackOp) (r : FrameResult) (p : Fin 8),
    s.tku.op = some op → op.stage = .calDecisionDue → op.result = some r →
    s.swc.cal.provisional = some p → s.storing = true →
    ∃ t k, exec .calibrationDecision s = .next t
      ∧ t.swc.decided = (if 0 < r.au then some .right else some .left)
      ∧ t.swc.state = .sweeping ∧ t.swc.keys = s.swc.keys ++ [k]
      ∧ k.index = 0 ∧ k.slot = some p ∧ k.u = 0 ∧ k.v = -(16 * (s.cfg.mrows : Int)) ∧ k.advance = 0
      ∧ k.source = .image ∧ k.gain = some 256 ∧ k.state = .pinned ∧ k.inliers = s.swc.cal.inliers
      ∧ (k.flags.weak = true ↔ r.lock ≠ .locked)
      ∧ t.swc.highWater = some (4 * (r.au.natAbs : Int)) ∧ t.swc.cal.provisional = none
      ∧ t.swc.pendingTunables = none ∧ t.swc.framesPerKey = 0 ∧ t.swc.gyroSinceKey = false
      ∧ (∀ u, s.swc.pendingTunables = some u → t.swc.config = s.swc.config.map (fun c => c.tune u))
      ∧ t.tku.held = s.tku.held ∧ t.igu = s.igu
      ∧ s.Noticed t (.key s.swc.id 0 k.stored 0 k.v (placeU 0) (placeV k.v) 0 .image k.flags k.inliers
          s.swc.framesPerKey)
      ∧ s.NoticedNext t (.session s.swc.id s.swc.state .sweeping none t.swc.decided t.swc.keys.length
          s.igu.nextStored)
      ∧ ∃ o, t.tku.op = some o ∧ o.slot = op.slot ∧ o.result = some r ∧ o.stage = .finished
        ∧ o.selections = op.selections ++ [{ kind := .leading, slot := p }]
          ++ (if s.cfg.extent = .fullCircle then [{ kind := .closure, slot := p }] else []))
  ∧ (∀ (s : State) (op : TrackOp) (r : FrameResult),
    s.tku.op = some op → s.swc.state = .calibrating ∨ s.swc.state = .recalibrating →
    s.swc.cal.provisional = none →
    (s.decideFrame r).swc.cal = { provisional := some op.slot, inliers := r.m, count := 0, run := none }
    ∧ (s.decideFrame r).tku.held = (s.tku.held.1 - r.au, s.tku.held.2 - r.av)
    ∧ (s.decideFrame r).igu = s.igu
    ∧ ∃ o, (s.decideFrame r).tku.op = some o ∧ o.stage = .finished
      ∧ o.selections = op.selections ++ [{ kind := .calibration, slot := op.slot }])
  ∧ ∀ (s : State) (op : TrackOp) (r : FrameResult) (p : Fin 8) (n : Nat),
    s.tku.op = some op → s.swc.state = .calibrating ∨ s.swc.state = .recalibrating →
    s.swc.cal.provisional = some p → n = s.swc.cal.count + 1 →
    (r.cls = .good ∧ 2 * s.cfg.wt ≤ r.au.natAbs → s.swc.cal.run = some (decide (0 < r.au)) →
      (∃ o, (s.decideFrame r).tku.op = some o ∧ o.stage = .calDecisionDue)
      ∧ (s.decideFrame r).swc.cal.count = n ∧ (s.decideFrame r).igu = s.igu)
    ∧ (¬ (r.cls = .good ∧ 2 * s.cfg.wt ≤ r.au.natAbs ∧ s.swc.cal.run = some (decide (0 < r.au))) →
      (s.decideFrame r).swc.cal = { s.swc.cal with
        count := n
        run := if r.cls = .good ∧ 2 * s.cfg.wt ≤ r.au.natAbs then some (decide (0 < r.au)) else none }
      ∧ (s.swc.state = .calibrating → s.cfg.calFrames ≤ n →
        ∃ o, (s.decideFrame r).tku.op = some o ∧ o.stage = .calTimeoutDue)
      ∧ (s.swc.state = .recalibrating → 2 * s.cfg.calFrames ≤ n →
        ∃ o, (s.decideFrame r).tku.op = some o ∧ o.stage = .noSweepDue)
      ∧ ((s.swc.state = .calibrating ∧ n < s.cfg.calFrames)
          ∨ (s.swc.state = .recalibrating ∧ n < 2 * s.cfg.calFrames) →
        op.selections = [] → s.heldAsKey op.slot = false →
        (s.decideFrame r).slotState op.slot = .last ∧ (s.decideFrame r).tku.op = none))

/-- 05 R92, R89: at cal_frames without a decision the frame becomes the new provisional reference, the old one's slot becomes FREE, the count and the run become 0, a calibration selection is asked for, TKU rebases to the frame and the session is RECALIBRATING with a SESSION notice; the frame's slot stays TRACKING until the selection completes and then becomes KEY (02 R23; Obligations.SelectionReplacesSet). The step is held due until its command comes, and when the slot moves is deduced, which are the model's choices (notes/assumptions/9.md, notes/assumptions/10.md). -/
def Obligations.CalibrationTimesOut : Prop :=
  ∀ (s : State) (op : TrackOp) (r : FrameResult),
    s.tku.op = some op → op.stage = .calTimeoutDue → op.result = some r → s.storing = true →
    ∃ t, exec .calibrationTimeout s = .next t ∧ t.swc.state = .recalibrating
      ∧ t.swc.cal = { provisional := some op.slot, inliers := r.m, count := 0, run := none }
      ∧ t.tku.held = (s.tku.held.1 - r.au, s.tku.held.2 - r.av)
      ∧ (∀ p, s.swc.cal.provisional = some p → t.igu = { s.igu with slots := s.igu.slots.set p {} })
      ∧ (s.swc.cal.provisional = none → t.igu = s.igu)
      ∧ (∃ o, t.tku.op = some o ∧ o.slot = op.slot ∧ o.stage = .finished
        ∧ o.selections = op.selections ++ [{ kind := .calibration, slot := op.slot }])
      ∧ s.Noticed t (.session s.swc.id s.swc.state .recalibrating none s.swc.decided s.swc.keys.length
          s.igu.nextStored)

/-- 05 R93, R95, 04 R74, 05 R98: the end causes NO_SWEEP, STALLED and KEY_LIMIT, when due in a storing state, are recorded and the session enters FINISHING with a SESSION notice (R89, R99), or DONE where nothing is left to do. 05 R96: a candidate held for three classed frames becomes the reported class and the run becomes 0, with a PACE notice. Step 5 of 04 R66 that leads there: 05 R96's classes and candidate run, R95's stall count and high-water mark, and R97's closure window: on entering CLOSING the closure run is 0 (08 R146) and a SESSION notice is queued; past the window the sweep ends with CLOSURE_MISSED, a SESSION notice and then a CLOSURE notice MISSED (08 R150). The steps are held due until their command comes, and pace comes before stall, which are the model's choices (notes/assumptions/10.md, notes/assumptions/16.md). -/
def Obligations.DueStepsTaken : Prop :=
  (∀ (s : State) (op : TrackOp), s.tku.op = some op → s.storing = true →
    (op.stage = .noSweepDue → ∃ t, exec .noSweep s = .next t ∧ t.swc.endCause = some .noSweep
      ∧ (t.swc.state = .finishing ∨ t.swc.state = .done) ∧ t.swc.keys = s.swc.keys
      ∧ s.Noticed t (.session s.swc.id s.swc.state .finishing (some .noSweep) s.swc.decided
          s.swc.keys.length s.igu.nextStored))
    ∧ (op.stage = .stalledDue → ∃ t, exec .stalled s = .next t ∧ t.swc.endCause = some .stalled
      ∧ (t.swc.state = .finishing ∨ t.swc.state = .done) ∧ t.swc.keys = s.swc.keys
      ∧ s.Noticed t (.session s.swc.id s.swc.state .finishing (some .stalled) s.swc.decided
          s.swc.keys.length s.igu.nextStored))
    ∧ (op.stage = .keyLimitDue → ∃ t, exec .keyLimit s = .next t ∧ t.swc.endCause = some .keyLimit
      ∧ (t.swc.state = .finishing ∨ t.swc.state = .done) ∧ t.swc.keys = s.swc.keys
      ∧ s.Noticed t (.session s.swc.id s.swc.state .finishing (some .keyLimit) s.swc.decided
          s.swc.keys.length s.igu.nextStored)))
  ∧ (∀ (s : State) (op : TrackOp) (r : FrameResult) (c : PaceClass),
    s.tku.op = some op → op.stage = .paceDue → op.result = some r → s.storing = true →
    s.swc.pace.candidate = some c →
    ∃ t, exec .paceChange s = .next t
      ∧ t.swc.pace = { reported := c, candidate := some c, run := 0 } ∧ t.swc.keys = s.swc.keys
      ∧ s.Noticed t (.pace s.swc.id r.stored s.swc.pace.reported c (s.sgn * r.su)))
  ∧ (∀ (c : SessionConfig) (v : Int),
    (paceClass c v = .fast ↔ v * c.fastFrames > c.atAdv)
    ∧ (paceClass c v = .slow ↔ ¬ v * c.fastFrames > c.atAdv ∧ v * c.slowFrames < c.atAdv))
  ∧ (∀ (s : State) (op : TrackOp) (r : FrameResult) (c : PaceClass),
    c = paceClass s.cfg (s.sgn * r.su) →
    (r.lock = .lost → (s.paceStep op r).swc.pace = { s.swc.pace with run := 0 })
    ∧ (r.lock ≠ .lost →
      (c = s.swc.pace.reported → (s.paceStep op r).swc.pace = { s.swc.pace with run := 0 })
      ∧ (c ≠ s.swc.pace.reported → s.swc.pace.candidate ≠ some c →
        (s.paceStep op r).swc.pace = { s.swc.pace with candidate := some c, run := 1 })
      ∧ (c ≠ s.swc.pace.reported → s.swc.pace.candidate = some c →
        (s.swc.pace.run < 2 →
          (s.paceStep op r).swc.pace = { s.swc.pace with run := s.swc.pace.run + 1 })
        ∧ (2 ≤ s.swc.pace.run → s.paceStep op r = s.setStage .paceDue))))
  ∧ (∀ (s : State) (op op0 : TrackOp) (r : FrameResult) (u m : Int),
    s.tku.op = some op0 → u = op.position.1 → m = s.swc.highWater.getD u →
    (s.stallStep op r).swc.highWater = some (max m u)
    ∧ (m + 16 ≤ u → (s.stallStep op r).swc.stallCount = 0)
    ∧ (u < m + 16 → (s.stallStep op r).swc.stallCount = s.swc.stallCount + 1
      ∧ (s.cfg.stallFrames ≤ s.swc.stallCount + 1 → (s.stallStep op r).swc.state = s.swc.state
        ∧ ∃ o, (s.stallStep op r).tku.op = some o ∧ o.stage = .stalledDue)))
  ∧ ∀ (s : State) (op : TrackOp) (r : FrameResult) (u : Int), u = op.position.1 →
    (s.cfg.extent = .fullCircle → s.swc.state = .sweeping →
      ((s.windowStep op r).swc.state = .closing ↔ 16 * s.cfg.uc - 12 * s.cfg.wf ≤ u)
      ∧ (16 * s.cfg.uc - 12 * s.cfg.wf ≤ u → (s.windowStep op r).cvm = { s.cvm with closureRun := 0 }
        ∧ s.Noticed (s.windowStep op r) (.session s.swc.id .sweeping .closing none s.swc.decided
            s.swc.keys.length s.igu.nextStored))
      ∧ (u < 16 * s.cfg.uc - 12 * s.cfg.wf → (s.windowStep op r).swc.state = .sweeping))
    ∧ (s.cfg.extent = .fullCircle → s.swc.state = .closing → 16 * s.cfg.uc + 8 * s.cfg.wf ≤ u →
      (s.windowStep op r).swc.endCause = some .closureMissed ∧ (s.windowStep op r).swc.state = .finishing
      ∧ (s.windowStep op r).cvm = { s.cvm with closureResult := some .missed }
      ∧ s.Noticed (s.windowStep op r) (.session s.swc.id .closing .finishing (some .closureMissed)
          s.swc.decided s.swc.keys.length s.igu.nextStored)
      ∧ s.NoticedNext (s.windowStep op r) (.closureMissed s.swc.id r.stored))
    ∧ (s.cfg.extent = .fullCircle → s.swc.state = .closing → u < 16 * s.cfg.uc + 8 * s.cfg.wf →
      (s.windowStep op r).swc.state = .closing ∧ (s.windowStep op r).cvm = s.cvm)
    ∧ (s.cfg.extent = .partialSweep → (s.windowStep op r).swc.state = s.swc.state
      ∧ (s.windowStep op r).cvm = s.cvm)

/-- 08 R148, 04 R71, R78: an accepted closure fixes Um, Vres and the result, with a CLOSURE notice; the frame becomes the CLOSURE key, lined up with key 0 in the cross axis, with its seam job, and ends the sweep with CLOSED, or waits with the closure-pending mark set. 08 R149: at acceptance the strip that holds the last column takes its width and LAST when it is OPEN, and LAST and WRAP when it is already FINAL and has not been SENDING; the non-held strips at or beyond Um take WRAP. 08 R147: what makes a measurement qualify; a qualifying one in CLOSING with an along advance of 0 or more counts in the closure run, and a second one in a row makes the acceptance due; any other frame in CLOSING sets the run to 0. That a strip has been SENDING when the transfer record counts it is deduced (notes/assumptions/18.md). The step is held due until its command comes, which is the model's choice (notes/assumptions/10.md). -/
def Obligations.ClosureAccepted : Prop :=
  (∀ (s : State) (op : TrackOp) (r : FrameResult) (um vres : Int),
    s.tku.op = some op → op.stage = .closureDue um vres → op.result = some r → s.storing = true →
    ∃ t, exec .closureAccepted s = .next t
      ∧ t.cvm.um = some um ∧ t.cvm.vres = some vres ∧ t.cvm.closureResult = some .accepted
      ∧ (s.keyResources = true → t.swc.closurePending = false ∧ t.swc.endCause = some .closed
          ∧ (∃ k, t.swc.keys = s.swc.keys ++ [k] ∧ k.source = .closure ∧ k.u = op.position.1
            ∧ k.advance = op.position.1 - s.lastKey.u
            ∧ ∀ c ecu ecv, r.closure = some c → c.est = some (ecu, ecv) →
              k.v = -(16 * (s.cfg.mrows : Int)) + 4 * ecv ∧ k.inliers = c.m)
          ∧ t.smu.queue = s.smu.queue ++ [.ordinary s.swc.keys.length]
          ∧ (op.selections = [] → t.slotState op.slot = .key ∧ t.tku.op = none))
      ∧ (s.keyResources = false → t.swc.closurePending = true ∧ t.swc.state = s.swc.state
          ∧ t.swc.keys = s.swc.keys ∧ t.igu = s.igu)
      ∧ t.cvm.strips = s.cvm.strips.map (fun q =>
          let w := q.wrap || (decide (um ≤ (q.uStart : Int)) && !q.isHeld)
          if q.index = ((um - 1) / 128).toNat then
            (if q.state = .opened then { q with wrap := w, width := (um - (q.uStart : Int)).toNat, last := true }
            else if q.state = .final ∧ s.sentBefore q.index = false then { q with wrap := true, last := true }
            else { q with wrap := w })
          else { q with wrap := w })
      ∧ t.cvm.outQueue = s.cvm.outQueue
      ∧ s.Noticed t (.closureAccepted s.swc.id r.stored um vres (r.closure.getD default).m))
  ∧ (∀ (s : State) (u v : Int) (r : FrameResult) (um vres : Int),
    s.closureMeasure (u, v) r = some (um, vres) ↔
      ∃ c ecu ecv, r.closure = some c ∧ c.est = some (ecu, ecv) ∧ c.cls = .good
        ∧ um = (u - 4 * s.sgn * ecu + 8) / 16 ∧ vres = v - (-(16 * (s.cfg.mrows : Int)) + 4 * ecv)
        ∧ 100 * ((um - s.cfg.uc).natAbs : Int) ≤ 3 * s.cfg.uc ∧ vres.natAbs ≤ 2 * s.cfg.hc)
  ∧ (∀ (s : State) (op : TrackOp) (r : FrameResult),
    s.tku.op = some op → s.swc.state = .closing →
    s.sgn * r.au < 0 ∨ s.closureMeasure (s.positionOf r) r = none →
    (s.decideFrame r).cvm.closureRun = 0)
  ∧ ∀ (s : State) (op : TrackOp) (r : FrameResult) (um vres : Int),
    s.tku.op = some op → s.swc.state = .closing → 0 ≤ s.sgn * r.au →
    s.closureMeasure (s.positionOf r) r = some (um, vres) →
    (s.cvm.closureRun = 1 → (s.decideFrame r).swc.keys = s.swc.keys ∧ (s.decideFrame r).igu = s.igu
      ∧ ∃ o, (s.decideFrame r).tku.op = some o ∧ o.stage = .closureDue um vres)
    ∧ (s.cvm.closureRun ≠ 1 → (s.decideFrame r).cvm.closureRun = 1)

/-- 04 R71, R72, R74, R77, R78: a waiting decision with a seam job place and a KEY slot is taken: the record joins the table, the seam job of the pair is queued, a KEY notice is queued, and the frames-per-key count and the gyro-since-key mark are cleared. In a storing state, but for a CLOSURE key, the leading selection is asked for, TKU rebases, pending tunables replace the values in force (05 R87), step 5 of R66 follows with those values, but key 63 makes KEY_LIMIT due instead, and the slot stays TRACKING until the selection completes and then becomes KEY (02 R23; Obligations.SelectionReplacesSet); in FINISHING and for a CLOSURE key none of that is made and the slot is KEY. A CLOSURE key is lined up with key 0 in the cross axis; its taking clears the closure-pending mark and in a storing state ends the sweep with CLOSED and a SESSION notice (08 R148). A waiting TAIL key is taken from the LAST slot, with its KEY notice and the counts cleared, and applies no pending set. The step is held due until its command comes, and when the slot moves is deduced, which are the model's choices (notes/assumptions/9.md, notes/assumptions/10.md). -/
def Obligations.WaitingKeyTaken : Prop :=
  (∀ (s : State) (op : TrackOp) (r : FrameResult) (kind : KeyKind),
    s.tku.op = some op → op.stage = .keyWaiting kind → op.result = some r → s.keyResources = true →
    s.swc.keys ≠ [] →
    ∃ t k, exec .takeKey s = .next t ∧ t.swc.keys = s.swc.keys ++ [k]
      ∧ k.index = s.swc.keys.length ∧ k.stored = r.stored ∧ k.slot = some op.slot
      ∧ k.u = op.position.1 ∧ k.advance = op.position.1 - s.lastKey.u ∧ k.state = .pinned
      ∧ (kind ≠ .closure → k.v = op.position.2 ∧ k.inliers = r.m)
      ∧ (kind = .closure → ∀ c ecu ecv, r.closure = some c → c.est = some (ecu, ecv) →
          k.v = -(16 * (s.cfg.mrows : Int)) + 4 * ecv ∧ k.inliers = c.m)
      ∧ (kind = .bridged → k.source = .bridged) ∧ (kind = .closure → k.source = .closure)
      ∧ (kind = .normal ∨ kind = .forced → k.source = (if r.cls = .good then .image else .blend))
      ∧ (k.flags.forced = true ↔ kind = .forced) ∧ (k.flags.weak = true ↔ r.lock ≠ .locked)
      ∧ t.smu.queue = s.smu.queue ++ [.ordinary s.swc.keys.length]
      ∧ t.swc.framesPerKey = 0 ∧ t.swc.gyroSinceKey = false
      ∧ s.Noticed t (.key s.swc.id k.index k.stored k.u k.v (placeU k.u) (placeV k.v) k.advance k.source
          k.flags k.inliers s.swc.framesPerKey)
      ∧ (s.storing = true → kind ≠ .closure →
          t.tku.held = (s.tku.held.1 - r.au, s.tku.held.2 - r.av) ∧ t.swc.pendingTunables = none
          ∧ (∀ u, s.swc.pendingTunables = some u → t.swc.config = s.swc.config.map (fun c => c.tune u))
          ∧ (s.swc.pendingTunables = none → t.swc.config = s.swc.config)
          ∧ (∃ v, s.KeyTaken v op r k
            ∧ (k.index = 63 → exec .takeKey s = .next (v.setStage .keyLimitDue).settle)
            ∧ (k.index ≠ 63 → exec .takeKey s = .next (v.paceStep op r).settle))
          ∧ (s.slotState op.slot = .tracking → t.slotState op.slot = .tracking)
          ∧ ∃ o, t.tku.op = some o ∧ o.slot = op.slot
            ∧ o.selections = op.selections ++ [{ kind := .leading, slot := op.slot }]
            ∧ (s.swc.keys.length = 63 → o.stage = .keyLimitDue))
      ∧ (s.storing = false ∨ kind = .closure →
          t.tku.held = s.tku.held ∧ t.swc.pendingTunables = s.swc.pendingTunables
          ∧ t.swc.config = s.swc.config
          ∧ (op.selections = [] → t.slotState op.slot = .key ∧ t.tku.op = none))
      ∧ (s.storing = false → t.swc.endCause = s.swc.endCause)
      ∧ (kind = .closure → t.swc.closurePending = false
          ∧ (s.storing = true → t.swc.endCause = some .closed
            ∧ (t.swc.state = .finishing ∨ t.swc.state = .done)
            ∧ s.NoticedNext t (.session s.swc.id s.swc.state .finishing (some .closed) s.swc.decided
                (s.swc.keys.length + 1) s.igu.nextStored))))
  ∧ ∀ (s : State) (i : Fin 8) (r : FrameResult),
    s.tku.op = none → s.swc.tail = .waiting → s.firstIn .last = some i → s.swc.lastResult = some r →
    s.keyResources = true → s.swc.keys ≠ [] →
    ∃ t k, exec .takeKey s = .next t ∧ t.swc.keys = s.swc.keys ++ [k] ∧ k.source = .tail
      ∧ k.index = s.swc.keys.length ∧ k.stored = r.stored ∧ k.u = (s.positionOf r).1 ∧ k.v = (s.positionOf r).2
      ∧ k.advance = k.u - s.lastKey.u ∧ k.inliers = r.m ∧ k.state = .pinned
      ∧ k.flags.forced = false ∧ (k.flags.weak = true ↔ r.lock ≠ .locked)
      ∧ k.slot = some i ∧ t.slotState i = .key ∧ t.swc.tail = .made
      ∧ t.smu.queue = s.smu.queue ++ [.ordinary s.swc.keys.length]
      ∧ t.swc.framesPerKey = 0 ∧ t.swc.gyroSinceKey = false
      ∧ t.swc.pendingTunables = s.swc.pendingTunables ∧ t.swc.config = s.swc.config
      ∧ s.Noticed t (.key s.swc.id k.index k.stored k.u k.v (placeU k.u) (placeV k.v) k.advance k.source
          k.flags k.inliers s.swc.framesPerKey)

/-- 04 R76, R77: in FINISHING with a cause that calls for it, with no operation in progress, a LAST frame that is GOOD or WEAK, lies At/4 to Amax ahead and fits the canvas becomes the TAIL key, or waits for its resources; a LAST frame that fails a condition gives up its slot, and with no slot LAST there is nothing to take. -/
def Obligations.TailKeyDecided : Prop :=
  (∀ (s : State) (i : Fin 8) (r : FrameResult) (a : Int) (fits : Prop),
    s.swc.state = .finishing →
    (s.swc.endCause = some .userStop ∨ s.swc.endCause = some .stalled
      ∨ s.swc.endCause = some .closureMissed) →
    s.tku.op = none → s.swc.tail = .notMade → s.swc.keys ≠ [] → s.firstIn .last = some i →
    s.swc.lastResult = some r → a = s.sgn * r.au →
    (fits ↔ (r.cls = .good ∨ r.cls = .weak) ∧ s.cfg.atAdv / 4 ≤ a ∧ a ≤ s.cfg.amax
      ∧ (s.lastKey.u + 4 * a + 8) / 16 + s.cfg.wf ≤ 128 * s.cfg.maxStrips) →
    (fits → s.keyResources = true → ∃ t k, exec .tailKeyDecision s = .next t
      ∧ t.swc.keys = s.swc.keys ++ [k] ∧ k.source = .tail ∧ k.u = (s.positionOf r).1
      ∧ t.slotState i = .key ∧ t.swc.tail = .made
      ∧ t.smu.queue = s.smu.queue ++ [.ordinary s.swc.keys.length])
    ∧ (fits → s.keyResources = false → ∃ t, exec .tailKeyDecision s = .next t
      ∧ t.swc.tail = .waiting ∧ t.swc.keys = s.swc.keys ∧ t.slotState i = .last)
    ∧ (¬ fits → ∃ t, exec .tailKeyDecision s = .next t
      ∧ t.swc.tail = .made ∧ t.swc.keys = s.swc.keys ∧ t.slotState i = .free))
  ∧ ∀ s : State, s.swc.state = .finishing →
    (s.swc.endCause = some .userStop ∨ s.swc.endCause = some .stalled
      ∨ s.swc.endCause = some .closureMissed) →
    s.tku.op = none → s.swc.tail = .notMade → s.firstIn .last = none →
    ∃ t, exec .tailKeyDecision s = .next t ∧ t.swc.tail = .made ∧ t.swc.keys = s.swc.keys
      ∧ t.igu = s.igu ∧ t.smu = s.smu

/-- 05 R100 item 5, 07 R126: in FINISHING, with tracking done, key 0 existing and the tail-key decision made where the cause calls for it, SWC marks the last key to BLU; a session without a key is never marked. 05 R100, 08 R145: when the work of FINISHING is done, the session becomes DONE with a SESSION notice (R89), at the end of the very command that ends the work, so that FINISHING never outlasts its work; until then nothing but a waiting access is granted. 09 R157 step 5: the clean end of the last strip's transfer is such a command. -/
def Obligations.FinalKeyMarked : Prop :=
  (∀ s : State, s.swc.state = .finishing → s.tku.op = none → s.swc.keys ≠ [] → s.blu.mark = none →
    (s.swc.tail = .made ∨ s.tailCalled = false) →
    ∃ t, exec .finalKeyMark s = .next t ∧ t.blu.mark = some (s.swc.keys.length - 1)
      ∧ t.swc.keys = s.swc.keys)
  ∧ (∀ s : State, s.swc.keys = [] → exec .finalKeyMark s = .next s)
  ∧ (∀ s : State, s.swc.state = .finishing → s.FinishingDone →
    s.settle.swc.state = .done ∧ s.settle.swc.keys = s.swc.keys ∧ s.settle.swc.endCause = s.swc.endCause
      ∧ (s.swc.keys ≠ [] → s.settle.igu = s.igu)
      ∧ s.Noticed s.settle (.session s.swc.id .finishing .done s.swc.endCause s.swc.decided s.swc.keys.length
          s.igu.nextStored))
  ∧ (∀ s : State, s.FinishingHasWork → s.settle = { s with grant := s.settle.grant })
  ∧ (∀ s t : State, s.FinishingHasWork → step s = .next t → t.FinishingHasWork)
  ∧ ∀ (s : State) (x : Transfer) (r : Strip),
    s.opu.state = .sending → s.opu.xfer = some x → s.stripAt x.strip = some r → s.pins.sopRdy = true →
    s.stripLines ≤ x.line → x.errorSeen = false → s.cvm.wait = none → s.cvm.outQueue = [x.strip] →
    s.swc.state = .finishing → s.tku.op = none → s.igu.prep = none →
    s.blu.mark ≠ none → s.cvm.lastCommit = true → s.smu.queue = [] → s.blu.queue = [] →
    ∃ t, exec .transferComplete s = .next t ∧ t.swc.state = .done ∧ t.cvm.outQueue = []
      ∧ s.NoticedNext t (.session s.swc.id .finishing .done s.swc.endCause s.swc.decided s.swc.keys.length
          s.igu.nextStored)

/-! ### Seams, commits and the canvas -/

/-- 06 R118: an ordinary job (k-1 | k) that has made its reads writes the gain of key k and the seam of key k-1, which becomes SEAMED, with GAIN_LIMIT, NARROW and DAMAGED where they apply; with room in the commit queue the commit for key k-1 enters it and the job leaves, else the job waits with its results written. 06 R120: the closure job (n | V0) writes the closure seam to key n, which becomes SEAMED, and DAMAGED to key n and, for errors on held strips, to key 0; no gain and no state of key 0 changes; the closure commit enters and no further job is queued. 07 R122, R123: a commit that enters an empty queue begins at once, with its span (R125, R135) and its column mapping, and one that enters behind another leaves that one running; 06 R107, R119: when the job has left, an ordinary job that is now at the head begins, and a closure job waits for its commit. Which samples a job has read by then, and so which errors it can meet, is the model's choice (notes/assumptions/44.md). -/
def Obligations.SeamJobCompletes : Prop :=
  (∀ (s : State) (rd : ReadSet) (k : Nat) (rest : List SeamJob) (l r : KeyRecord),
    s.smu.run = some { rd := rd, held := false } → s.smu.queue = .ordinary k :: rest →
    s.nextSeamRead = none → 1 ≤ k → s.swc.keys[k - 1]? = some l → s.swc.keys[k]? = some r →
    ∃ t l' r', exec .seamJobDone s = .next t
      ∧ t.swc.keys[k - 1]? = some l' ∧ t.swc.keys[k]? = some r'
      ∧ r'.gain = some (s.jobGain k rd.failed).1 ∧ l'.seam = (s.jobSeam rd.failed (.ordinary k)).1
      ∧ l'.state = .seamed ∧ r'.state = r.state ∧ l'.SameTaking l ∧ r'.SameTaking r
      ∧ r'.flags = { r.flags with gainLimit := r.flags.gainLimit || (s.jobGain k rd.failed).2
                                  damaged := r.flags.damaged || failedInSlot rd.failed r.slot }
      ∧ l'.flags = { l.flags with narrow := l.flags.narrow || (s.jobSeam rd.failed (.ordinary k)).2
                                  damaged := l.flags.damaged || failedInSlot rd.failed l.slot }
      ∧ (s.blu.queue.length < 2 →
          t.blu.queue = s.blu.queue ++ [{ kind := .ordinary, key := k - 1 }]
          ∧ t.blu.frontier = s.blu.frontier ∧ t.blu.entered = s.blu.entered + 1
          ∧ (s.blu.queue = [] → t.CommitBegun { kind := .ordinary, key := k - 1 })
          ∧ (s.blu.queue ≠ [] → t.blu.run = s.blu.run ∧ t.blu.state = s.blu.state)
          ∧ t.smu.queue = rest ++ (if r.source = .closure then [.closure k] else [])
          ∧ t.NextSeamBegun)
      ∧ (2 ≤ s.blu.queue.length → t.blu.queue = s.blu.queue ∧ t.smu.queue = s.smu.queue
          ∧ t.smu.run = some { rd := rd, held := true }))
  ∧ ∀ (s : State) (rd : ReadSet) (n : Nat) (rest : List SeamJob) (l z : KeyRecord),
    s.smu.run = some { rd := rd, held := false } → s.smu.queue = .closure n :: rest →
    s.nextSeamRead = none → 1 ≤ n → s.swc.keys[n]? = some l → s.swc.keys[0]? = some z →
    ∃ t l' z', exec .seamJobDone s = .next t ∧ t.swc.keys[n]? = some l' ∧ t.swc.keys[0]? = some z'
      ∧ l' = { l with
          seam := (s.jobSeam rd.failed (.closure n)).1
          state := .seamed
          flags := { l.flags with narrow := l.flags.narrow || (s.jobSeam rd.failed (.closure n)).2
                                  damaged := l.flags.damaged || failedInSlot rd.failed l.slot } }
      ∧ z' = { z with flags := { z.flags with damaged := z.flags.damaged || failedInStrips rd.failed } }
      ∧ (s.blu.queue.length < 2 →
          t.blu.queue = s.blu.queue ++ [{ kind := .closure, key := n }]
          ∧ t.blu.frontier = s.blu.frontier ∧ t.blu.finalEntered = true
          ∧ (s.blu.queue = [] → t.CommitBegun { kind := .closure, key := n })
          ∧ (s.blu.queue ≠ [] → t.blu.run = s.blu.run ∧ t.blu.state = s.blu.state)
          ∧ t.smu.queue = rest ∧ t.NextSeamBegun)
      ∧ (2 ≤ s.blu.queue.length → t.blu.queue = s.blu.queue ∧ t.smu.queue = s.smu.queue
          ∧ t.smu.run = some { rd := rd, held := true })

/-- 06 R119: the closure job at the head of the queue begins once the commit for key n-1 has completed; nothing else changes but the grant. 07 R122, R126, 06 R118: the commit of a job that waits at stage 4 takes a freed place and the job leaves, the closure job of a CLOSURE key taking its place, and an ordinary job that is now at the head begins (06 R107); the final commit for the marked key n enters once the ordinary commit for key n-1 has entered and a place is free. 07 R123, R125, R126, R135: a commit that enters an empty queue begins at once, with a span from the frontier to 8 columns before the least entry of its seam, to the right edge of its key, also where its seam is absent, or for the closure commit to min(Up, Um) + Wf. 07 R126: in a CLOSED session the closure commit is the final one, and once the final commit has entered the mark enters nothing. That a span which would end before the frontier is empty is deduced (notes/assumptions/38.md). -/
def Obligations.QueuesMove : Prop :=
  (∀ (s : State) (n : Nat) (rest : List SeamJob) (l : KeyRecord),
    s.smu.run = none → s.smu.queue = .closure n :: rest → s.swc.keys[n - 1]? = some l →
    (l.state = .committed ∨ l.state = .released) →
    ∃ t, exec .closureJobBegin s = .next t ∧ t.smu.run = some {} ∧ t.smu.queue = s.smu.queue
      ∧ t = { s with smu.run := some {}, grant := t.grant })
  ∧ (∀ (s : State) (rd : ReadSet) (job : SeamJob) (rest : List SeamJob),
    s.smu.run = some { rd := rd, held := true } → s.smu.queue = job :: rest → s.blu.queue.length < 2 →
    ∃ t, exec .commitEnter s = .next t ∧ t.swc.keys = s.swc.keys ∧ t.NextSeamBegun
      ∧ (s.blu.queue ≠ [] → t.blu.run = s.blu.run ∧ t.blu.state = s.blu.state)
      ∧ (∀ k, job = .ordinary k →
          t.blu.queue = s.blu.queue ++ [{ kind := .ordinary, key := k - 1 }]
          ∧ t.blu.entered = s.blu.entered + 1
          ∧ ((s.keyOr k).source ≠ .closure → t.smu.queue = rest)
          ∧ ((s.keyOr k).source = .closure → t.smu.queue = rest ++ [.closure k])
          ∧ (∀ q x xs, s.blu.queue = [] → s.swc.keys[k - 1]? = some q → q.seam = some (x :: xs) →
              ∃ run, t.blu.run = some run ∧ t.blu.state = .writing ∧ run.spanLo = s.blu.frontier
                ∧ run.spanHi = max s.blu.frontier (leastInt 0 (x :: xs) - 8))
          ∧ (∀ q, s.blu.queue = [] → s.swc.keys[k - 1]? = some q → q.seam = none →
              ∃ run, t.blu.run = some run ∧ t.blu.state = .writing ∧ run.spanLo = s.blu.frontier
                ∧ run.spanHi = max s.blu.frontier (placeU q.u + s.cfg.wf)))
      ∧ (∀ n, job = .closure n →
          t.blu.queue = s.blu.queue ++ [{ kind := .closure, key := n }] ∧ t.blu.entered = s.blu.entered
          ∧ t.smu.queue = rest ∧ t.blu.finalEntered = true
          ∧ (∀ q um, s.blu.queue = [] → s.swc.keys[n]? = some q → s.cvm.um = some um →
              ∃ run, t.blu.run = some run ∧ t.blu.state = .writing ∧ run.spanLo = s.blu.frontier
                ∧ run.spanHi = max s.blu.frontier (min (placeU q.u) um + s.cfg.wf)
                ∧ (s.cfg.extent = .fullCircle → run.wrap = some um))))
  ∧ (∀ s : State, s.blu.finalEntered = true ∨ s.swc.endCause = some .closed ∨ s.blu.mark = none →
    exec .finalCommitEnter s = .next s)
  ∧ ∀ (s : State) (n : Nat), s.blu.mark = some n → s.swc.endCause ≠ some .closed →
    s.blu.finalEntered = false → n ≤ s.blu.entered → s.blu.queue.length < 2 →
    ∃ t, exec .finalCommitEnter s = .next t
      ∧ t.blu.queue = s.blu.queue ++ [{ kind := .final, key := n }] ∧ t.blu.finalEntered = true
      ∧ t.swc.keys = s.swc.keys
      ∧ ∀ q, s.blu.queue = [] → s.swc.keys[n]? = some q →
        ∃ run, t.blu.run = some run ∧ t.blu.state = .writing ∧ run.spanLo = s.blu.frontier
          ∧ run.spanHi = max s.blu.frontier (placeU q.u + s.cfg.wf)

/-- 08 R140 to R142: the open request for the next strip of the running commit: a strip OPEN in the table, or not in the table with its slot free, is OPEN afterwards and BLU writes its part. With another strip in its ring slot, under WAIT, or under OVERWRITE when the occupant is not FINAL or carries the error mark, BLU is WAITING, the wait names both strips, a CANVAS notice is queued and no strip record changes; under OVERWRITE a FINAL occupant with its mark clear is discarded: it leaves table and queue, the count rises, for a DAMAGED one the damaged count too (R137), a STRIP notice DISCARDED is queued, and the strip asked for is OPEN; when the transfer record counts the discarded strip, the transfer number returns to 0 and the record is emptied (09 R153). A strip that the request has created is filled before its pixels are written, and one already OPEN is not (10 R168; Obligations.WritesComplete). That a strip has been SENDING when the transfer record counts it is deduced (notes/assumptions/18.md). 08 R138, R139, R149: the record of a strip that is opened: its slot, width 128, no holes, flags and mark clear, but after an accepted closure the width and LAST of the strip with the last column, and WRAP at or beyond Um. -/
def Obligations.StripRequestAnswered : Prop :=
  ∀ (s : State) (run : CommitRun) (j : Nat),
    s.blu.run = some run → s.blu.state = .writing → run.cursor < run.spanHi → s.nextBlu = none →
    (run.nextPart false).strip = j →
    ((∃ r, s.stripAt j = some r ∧ r.state = .opened) → ∃ t, exec .stripOpenRequest s = .next t
      ∧ t.cvm.strips = s.cvm.strips ∧ t.opu = s.opu
      ∧ t.blu = { s.blu with run := some { run with
          part := some (run.nextPart false), cursor := (run.nextPart false).hi } })
    ∧ (s.stripAt j = none → s.occupantOf j = none → ∃ t r, exec .stripOpenRequest s = .next t
      ∧ t.stripAt j = some r ∧ r.state = .opened ∧ r.holes = 0 ∧ r.error = false
      ∧ r.slot = s.slotOfStrip j ∧ s.Fresh j r
      ∧ (∀ i : Nat, i ≠ j → t.stripAt i = s.stripAt i) ∧ t.cvm.outQueue = s.cvm.outQueue ∧ t.opu = s.opu
      ∧ t.blu = { s.blu with run := some { run with
          part := some (run.nextPart true), cursor := (run.nextPart true).hi } })
    ∧ (∀ occ, s.stripAt j = none → s.occupantOf j = some occ →
      s.cfg.policy = .wait ∨ occ.state ≠ .final ∨ occ.error = true →
      ∃ t, exec .stripOpenRequest s = .next t ∧ t.blu.state = .waiting
      ∧ t.cvm.wait = some { strip := j, occupant := occ.index, occupantState := occ.state }
      ∧ t.cvm.strips = s.cvm.strips ∧ t.cvm.outQueue = s.cvm.outQueue
      ∧ s.Noticed t (.canvas s.swc.id j occ.index occ.state s.cfg.policy false))
    ∧ (∀ occ, s.stripAt j = none → s.occupantOf j = some occ → s.cfg.policy = .overwrite →
      occ.state = .final → occ.error = false →
      ∃ t r, exec .stripOpenRequest s = .next t ∧ t.stripAt occ.index = none ∧ occ.index ∉ t.cvm.outQueue
      ∧ t.cvm.discarded = min 65535 (s.cvm.discarded + 1)
      ∧ (s.stripAt occ.index = some occ →
          t.cvm.damaged = (if occ.damaged = true then min 65535 (s.cvm.damaged + 1) else s.cvm.damaged))
      ∧ t.stripAt j = some r ∧ r.state = .opened ∧ r.slot = s.slotOfStrip j ∧ s.Fresh j r
      ∧ (∀ i : Nat, i ≠ j → i ≠ occ.index → t.stripAt i = s.stripAt i)
      ∧ (s.sentBefore occ.index = true → t.opu = { s.opu with number := 0, xfer := none })
      ∧ (s.sentBefore occ.index = false → t.opu = s.opu)
      ∧ t.blu = { s.blu with run := some { run with
          part := some (run.nextPart true), cursor := (run.nextPart true).hi } }
      ∧ t.cvm.wait = s.cvm.wait
      ∧ s.Noticed t (.strip s.swc.id occ.index .discarded occ.holes occ.damaged 0))

/-- 07 R134, 04 R62: the ordinary commit for key j completes: key j is COMMITTED, key j-1, where there is one, is RELEASED and its slot FREE, the frontier takes the end of the span and the commit leaves the queue. 08 R143, R145: the OPEN strips that are not held and lie wholly below the frontier become FINAL and join the output queue in index order; no other strip changes. 07 R123, R134 step 5: the next commit, if any, begins with its span (R125, R126, R135) and its column mapping, and without one BLU is IDLE. -/
def Obligations.OrdinaryCommitCompletes : Prop :=
  (∀ (s : State) (run : CommitRun) (j : Nat) (rest : List Commit) (l r : KeyRecord) (i : Fin 8),
    s.blu.run = some run → s.blu.queue = { kind := .ordinary, key := j } :: rest →
    s.blu.state = .writing → run.spanHi ≤ run.cursor → s.nextBlu = none →
    1 ≤ j → s.swc.keys[j - 1]? = some l → s.swc.keys[j]? = some r → l.slot = some i →
    ∃ t l' r', exec .commitComplete s = .next t
      ∧ t.swc.keys[j - 1]? = some l' ∧ l'.state = .released ∧ l'.slot = none ∧ l'.SameTaking l
      ∧ t.swc.keys[j]? = some r' ∧ r'.state = .committed ∧ r'.SameTaking r
      ∧ t.slotState i = .free ∧ t.blu.frontier = run.spanHi ∧ t.blu.queue = rest)
  ∧ (∀ (s : State) (run : CommitRun) (rest : List Commit) (r : KeyRecord),
    s.blu.run = some run → s.blu.queue = { kind := .ordinary, key := 0 } :: rest →
    s.blu.state = .writing → run.spanHi ≤ run.cursor → s.nextBlu = none → s.swc.keys[0]? = some r →
    ∃ t, exec .commitComplete s = .next t
      ∧ t.swc.keys[0]? = some { r with state := .committed } ∧ t.igu = s.igu
      ∧ t.blu.frontier = run.spanHi ∧ t.blu.queue = rest)
  ∧ ∀ (s : State) (run : CommitRun) (j : Nat) (rest : List Commit),
    s.blu.run = some run → s.blu.queue = { kind := .ordinary, key := j } :: rest →
    s.blu.state = .writing → run.spanHi ≤ run.cursor → s.nextBlu = none →
    ∃ t, exec .commitComplete s = .next t
      ∧ t.cvm.strips = s.cvm.strips.map (fun r =>
          if r.state = .opened ∧ r.isHeld = false ∧ (r.uStart : Int) + r.width ≤ run.spanHi then
            { r with state := .final } else r)
      ∧ t.cvm.outQueue = s.cvm.outQueue ++ (s.cvm.strips.filter (fun r =>
          decide (r.state = .opened ∧ r.isHeld = false ∧ (r.uStart : Int) + r.width ≤ run.spanHi))).map Strip.index
      ∧ t.cvm.lastCommit = s.cvm.lastCommit
      ∧ t.blu.frontier = run.spanHi ∧ t.blu.queue = rest
      ∧ (rest = [] → t.blu.state = .idle ∧ t.blu.run = none)
      ∧ (∀ c more, rest = c :: more → t.CommitBegun c)

/-- 07 R134, R135, 08 R143 to R145: once the session's final commit or its closure commit for key n completes, key n and, where there is one, key n-1 are RELEASED, the frontier takes the end of the span and the last commit is known to have completed. Without an accepted closure the strip that holds the column before the frontier takes its width and LAST; every OPEN strip becomes FINAL; those not held below the frontier join the output queue first, then the others not held, then the held ones, each in the order of the table. 07 R123: a commit behind it begins, and without one BLU is IDLE. -/
def Obligations.FinalCommitCompletes : Prop :=
  ∀ (s : State) (run : CommitRun) (kind : CommitKind) (n : Nat) (rest : List Commit) (r : KeyRecord)
    (marked : List Strip),
    s.blu.run = some run → s.blu.queue = { kind := kind, key := n } :: rest →
    kind = .final ∨ kind = .closure →
    s.blu.state = .writing → run.spanHi ≤ run.cursor → s.nextBlu = none →
    s.swc.keys[n]? = some r →
    marked = (if s.cvm.um = none then s.cvm.strips.map (fun q =>
        if q.index = ((run.spanHi - 1) / 128).toNat then
          { q with width := (run.spanHi - (q.uStart : Int)).toNat, last := true } else q)
      else s.cvm.strips) →
    ∃ t r', exec .commitComplete s = .next t ∧ t.cvm.lastCommit = true
      ∧ (∀ q ∈ t.cvm.strips, q.state ≠ .opened)
      ∧ t.swc.keys[n]? = some r' ∧ r'.state = .released ∧ r'.slot = none ∧ r'.SameTaking r
      ∧ t.blu.frontier = run.spanHi ∧ t.blu.queue = rest
      ∧ (rest = [] → t.blu.state = .idle ∧ t.blu.run = none)
      ∧ (∀ c more, rest = c :: more → t.CommitBegun c)
      ∧ (∀ l, 1 ≤ n → s.swc.keys[n - 1]? = some l →
          ∃ l', t.swc.keys[n - 1]? = some l' ∧ l'.state = .released ∧ l'.slot = none ∧ l'.SameTaking l)
      ∧ t.cvm.strips = marked.map (fun q => if q.state = .opened then { q with state := .final } else q)
      ∧ t.cvm.outQueue = s.cvm.outQueue
        ++ (marked.filter (fun q => decide (q.state = .opened ∧ q.isHeld = false
            ∧ (q.uStart : Int) + q.width ≤ run.spanHi))).map Strip.index
        ++ (marked.filter (fun q => decide (q.state = .opened ∧ q.isHeld = false
            ∧ run.spanHi < (q.uStart : Int) + q.width))).map Strip.index
        ++ (marked.filter (fun q => decide (q.state = .opened ∧ q.isHeld = true))).map Strip.index

/-! ### Buffer memory -/

/-- 10 R165, R167: a write of a whole word stores its eight bytes and clears the word's mark; a merge over a word that reads as uncorrectable stores the new bytes, leaves the word poisoned and sets ECC_ERROR. Every byte outside the word reads as before. 07 R130, R133: a live write of BLU adds its holes to the hole count of its strip, which holds at 65,535, and sets DAMAGED for a spoilt pixel or a failed merge; each writer goes on to its next write: BLU's strip part, fill before pixels (R168), IGU's line buffers before its prepare pass. A write that has been abandoned is noted with no writer. One ECC word an access is the model's choice (notes/assumptions/6.md). -/
def Obligations.WritesComplete : Prop :=
  ∀ (s : State) (g : Grant) (w : WordWrite) (o : EccOutcome),
    s.MemoryCanonical → s.grant = some g → g.access.write = some w → g.access.addr = w.addr →
    w.addr + 8 ≤ addressedBytes → w.bytes.length = 8 →
    ∃ t, exec (.memoryAccessComplete o) s = .next t
      ∧ (∀ (k : Nat) (b : Byte), w.bytes[k]? = some (some b) → readByte t.mem (w.addr + k) = b)
      ∧ (∀ k : Nat, w.bytes[k]? = some none → readByte t.mem (w.addr + k) = readByte s.mem (w.addr + k))
      ∧ (∀ a : Nat, a < w.addr ∨ w.addr + 8 ≤ a → readByte t.mem a = readByte s.mem a)
      ∧ (w.whole = true → markOf t.ecc w.addr = none ∧ t.lku.flags = s.lku.flags)
      ∧ (w.whole = false → readOutcome (markOf s.ecc w.addr) o = .uncorrectable →
          markOf t.ecc w.addr = some .uncorrectable ∧ t.lku.flags.eccError = true)
      ∧ (w.whole = false → readOutcome (markOf s.ecc w.addr) o ≠ .uncorrectable →
          markOf t.ecc w.addr = none ∧ t.lku.flags = s.lku.flags)
      ∧ (g.live = false → t.igu = s.igu ∧ t.blu = s.blu ∧ t.cvm = s.cvm)
      ∧ (g.live = true → g.access.who = .igu →
          (∀ b rest next, s.igu.lineBuffers = b :: rest → b.writes = w :: next →
            t.igu = { s.igu with
              lineBuffers := if next = [] then rest else { b with writes := next } :: rest })
          ∧ (s.igu.lineBuffers = [] → t.igu = { s.igu with
              prep := s.igu.prep.map (fun p => { p with written := p.written + 1 }) }))
      ∧ (g.live = true → g.access.who = .blu → ∀ run p r,
          s.blu.run = some run → run.part = some p → s.stripAt p.strip = some r →
          t.blu = { s.blu with run := some { run with
            part := some (if p.created = true ∧ p.fills < (s.fillWrites r.slot).length then
              { p with fills := p.fills + 1 } else { p with writes := p.writes + 1 }) } }
          ∧ ∃ damaged : Bool,
            (damaged = true ↔ r.damaged = true ∨ w.spoilt = true
              ∨ w.whole = false ∧ readOutcome (markOf s.ecc w.addr) o = .uncorrectable)
            ∧ t.stripAt p.strip = some { r with holes := min 65535 (r.holes + w.holes), damaged := damaged })

/-- 10 R165, R166, R161: a read changes no byte, and the mark of no word but its own; a word that reads as uncorrectable stays so, and a corrected single-bit error stays in the word. An uncorrectable read sets ECC_ERROR, also when the work it served has been abandoned, and any other leaves the flags as they were. The reader of a live read notes the word, and notes it as failed when it is uncorrectable: the prepare pass, the search or the selection in hand, the seam job, the commit, or the transfer, whose error-seen mark it sets (09 R158). An access that reaches beyond the addressed areas stops with a fault. That every uncorrectable outcome lasts (notes/assumptions/46.md) and the fault (notes/assumptions/36.md) are the model's choices. -/
def Obligations.ReadsComplete : Prop :=
  (∀ (s : State) (g : Grant) (o : EccOutcome) (a : Nat) (bad : Prop) (note : ReadSet → ReadSet),
    s.grant = some g → g.access.write = none → a = g.access.addr → a + 8 ≤ addressedBytes →
    (bad ↔ readOutcome (markOf s.ecc a) o = .uncorrectable) →
    (∀ rd : ReadSet, (bad → note rd = { done := rd.done ++ [a], failed := rd.failed ++ [a] })
      ∧ (¬ bad → note rd = { rd with done := rd.done ++ [a] })) →
    ∃ t, exec (.memoryAccessComplete o) s = .next t ∧ t.mem = s.mem
      ∧ (∀ u, u ≠ a → markOf t.ecc u = markOf s.ecc u)
      ∧ (bad → markOf t.ecc a = some .uncorrectable)
      ∧ (readOutcome (markOf s.ecc a) o = .singleBit → markOf t.ecc a = some .singleBit)
      ∧ (readOutcome (markOf s.ecc a) o = .clean → t.ecc = s.ecc)
      ∧ (bad → t.lku = { s.lku with flags.eccError := true })
      ∧ (¬ bad → t.lku = s.lku)
      ∧ (g.live = false → t = { s with grant := t.grant, ecc := t.ecc, lku := t.lku })
      ∧ (g.live = true →
        (g.access.who = .igu → t = { s with
          igu.prep := s.igu.prep.map (fun p => { p with rd := note p.rd })
          grant := t.grant, ecc := t.ecc, lku := t.lku })
        ∧ (g.access.who = .tku → t = { s with
          tku.op := s.tku.op.map (fun op =>
            if op.stage = .searching then { op with rd := note op.rd }
            else { op with selections := match op.selections with
                                         | [] => []
                                         | sel :: rest => { sel with rd := note sel.rd } :: rest })
          grant := t.grant, ecc := t.ecc, lku := t.lku })
        ∧ (g.access.who = .smu → t = { s with
          smu.run := s.smu.run.map (fun r => { r with rd := note r.rd })
          grant := t.grant, ecc := t.ecc, lku := t.lku })
        ∧ (g.access.who = .blu → t = { s with
          blu.run := s.blu.run.map (fun r => { r with rd := note r.rd })
          grant := t.grant, ecc := t.ecc, lku := t.lku })
        ∧ (g.access.who = .opu → ∀ x, s.opu.xfer = some x →
          ∃ seen, (seen = true ↔ x.errorSeen = true ∨ bad)
            ∧ t = { s with
              opu.xfer := some { x with rd := note x.rd, errorSeen := seen }
              grant := t.grant, ecc := t.ecc, lku := t.lku })))
  ∧ ∀ (s : State) (g : Grant) (o : EccOutcome), s.grant = some g →
    addressedBytes < g.access.addr + 8 →
    exec (.memoryAccessComplete o) s = .fault .noSuchAddress

/-! ### Strip output -/

/-- 09 R154, R153: with OPU IDLE, SOP_RDY high and a FINAL head with its mark clear, the transfer starts: the strip is SENDING and keeps its place, the transfer number rises and holds at 65,535, SOP_FV rises and the header line, which carries the strip's fields, begins: SOP_LV is high and none of its beats has been presented. The beats that follow are presented one by one (Obligations.LinesPresented), which is the model's choice of a step (notes/assumptions/22.md). -/
def Obligations.TransferStarts : Prop :=
  ∀ (s : State) (r : Strip) (j : Nat) (rest : List Nat),
    s.opu.state = .idle → s.pins.sopRdy = true → s.cvm.outQueue = j :: rest → s.stripAt j = some r →
    r.state = .final → r.error = false →
    ∃ t x, exec .transferStart s = .next t ∧ t.opu.state = .sending
      ∧ t.opu.number = min 65535 (s.opu.number + 1)
      ∧ t.opu.xfer = some x ∧ x.strip = j ∧ x.session = s.swc.id ∧ x.line = 0 ∧ x.errorSeen = false
      ∧ t.pins = { s.pins with
          sopFv := true, sopLv := true, sopBeat := 0
          sopLine := s.headerLine r s.swc.id (min 65535 (s.opu.number + 1)) }
      ∧ (∃ r', t.stripAt j = some r' ∧ r' = { r with state := .sending })
      ∧ t.cvm.outQueue = s.cvm.outQueue

/-- 09 R155, R156, 10 R164: with SOP_RDY high and the next line's reads complete, OPU begins that line and goes on to the one after it; while its reads are due or SOP_RDY is low it does not begin. 09 R155, R156: each line is one run of SOP_LV: while SOP_RDY is high its beats are presented one after the other, SOP_LV falls with the last of them and stays low between lines; after the last line, or after a cut, the trailer line begins; while SOP_RDY is low no beat is presented and the levels stay, inside a line or between lines. 09 R156: a change of SOP_RDY changes nothing but the level. That a step with an empty queue is one beat's time, and that the trailer's last beat is that of the command which ends the transfer, are the model's choices (notes/assumptions/1.md, notes/assumptions/22.md). -/
def Obligations.LinesPresented : Prop :=
  (∀ (s : State) (x : Transfer) (r : Strip),
    s.opu.state = .sending → s.opu.xfer = some x → s.stripAt x.strip = some r → s.pins.sopRdy = true →
    x.line < s.stripLines → s.nextLineRead = none →
    ∃ t, exec .sopLineStart s = .next t ∧ t.opu = { s.opu with xfer := some { x with line := x.line + 1, rd := {} } }
      ∧ t.pins = { s.pins with
          sopLv := true, sopBeat := 0, sopLine := s.stripLine r x.rd.failed (x.line + 1) }
      ∧ t.cvm.strips = s.cvm.strips)
  ∧ (∀ s : State, s.pins.sopRdy = false ∨ s.nextLineRead ≠ none → exec .sopLineStart s = .next s)
  ∧ (∀ (b : Bool) (s : State), exec (.sopRdyChange b) s = .next { s with pins.sopRdy := b })
  ∧ (∀ s : State, s.pending = [] → s.pins.sopRdy = true → s.pins.sopLv = true →
    (s.pins.sopBeat + 1 < s.pins.sopLine.length →
      step s = .next { s with pins.sopBeat := s.pins.sopBeat + 1 })
    ∧ (s.pins.sopLine.length ≤ s.pins.sopBeat + 1 →
      ((∀ x, s.opu.xfer = some x → x.trailer = false) →
        step s = .next { s with pins.sopBeat := s.pins.sopLine.length, pins.sopLv := false })
      ∧ (∀ x, s.opu.xfer = some x → x.trailer = true → step s = .next s)))
  ∧ (∀ (s : State) (x : Transfer), s.pending = [] → s.pins.sopRdy = true → s.pins.sopLv = false →
    s.opu.xfer = some x →
    (s.opu.state = .sending → x.line < s.stripLines → step s = .next s)
    ∧ (∀ (r : Strip) (y : Transfer), s.opu.state = .sending → s.stripLines ≤ x.line →
      s.stripAt x.strip = some r → y = { x with holes := r.holes, flags := s.stripFlags r, trailer := true } →
      step s = .next { s with
        opu.xfer := some y
        pins := { s.pins with
          sopLv := true, sopBeat := 0
          sopLine := trailerLine y s.opu.number (if x.errorSeen = true then 1 else 0) } })
    ∧ (s.opu.state = .cutting → step s = .next { s with
        opu.xfer := some { x with trailer := true }
        pins := { s.pins with sopLv := true, sopBeat := 0, sopLine := trailerLine x s.opu.number 2 } }))
  ∧ ∀ s : State, s.pending = [] → s.pins.sopRdy = false → step s = .next s

/-- 09 R157, R158, R160: the end of a transfer with SOP_RDY high. Clean: the strip leaves table and queue, the sent count rises, DAMAGED counts, the number returns to 0, OPU is IDLE and a STRIP notice SENT is queued; 08 R141: a wait on the strip's slot ends, the strip waited for is OPEN, BLU writes on and a CANVAS notice of the end is queued, and any other wait stays. With an error seen: the strip is FINAL with its mark set, OPU is HALTED, OUTPUT_HALTED is set and a STRIP notice MEMORY_ERROR is queued. Cut off: after the ABORTED trailer OPU is IDLE. In all three the trailer has been sent to its last beat, and SOP_LV and SOP_FV fall. 09 R155: a trailer that has begun keeps the hole count and flags it was built with; one that is built only now takes those of the strip record. What the trailer carries is deduced (notes/assumptions/21.md), as is that the notice of the end of a wait repeats the occupant's state of its start (notes/assumptions/17.md), and that the command sends what is left of the trailer is the model's choice (notes/assumptions/22.md). -/
def Obligations.TransfersEnd : Prop :=
  (∀ (s : State) (x : Transfer) (r : Strip) (line : Nat → List Beat),
    s.opu.state = .sending → s.opu.xfer = some x → s.stripAt x.strip = some r → s.pins.sopRdy = true →
    s.stripLines ≤ x.line →
    (∀ status, line status = trailerLine
      (if x.trailer = true then x else { x with holes := r.holes, flags := s.stripFlags r }) s.opu.number status) →
    (x.errorSeen = false → (∀ w, s.cvm.wait = some w → w.strip ≠ x.strip) →
      ∃ t, exec .transferComplete s = .next t ∧ t.stripAt x.strip = none
      ∧ (x.strip ∉ t.cvm.outQueue) ∧ t.cvm.sent = min 65535 (s.cvm.sent + 1)
      ∧ t.cvm.damaged = (if r.damaged = true then min 65535 (s.cvm.damaged + 1) else s.cvm.damaged)
      ∧ t.opu = { state := .idle, number := 0, xfer := none }
      ∧ t.pins = { s.pins with sopFv := false, sopLv := false, sopLine := line 0, sopBeat := (line 0).length }
      ∧ s.Noticed t (.strip x.session x.strip .sent r.holes r.damaged s.opu.number)
      ∧ ((∀ w, s.cvm.wait = some w → w.occupant ≠ x.strip) → t.cvm.wait = s.cvm.wait ∧ t.blu = s.blu)
      ∧ ∀ w, s.cvm.wait = some w → w.occupant = x.strip → s.stripAt w.strip = none →
        t.cvm.wait = none ∧ t.blu.state = .writing
        ∧ (∃ q, t.stripAt w.strip = some q ∧ q.state = .opened ∧ q.slot = s.slotOfStrip w.strip)
        ∧ (∀ run, s.blu.run = some run → ∃ run', t.blu.run = some run' ∧ run'.part = some (run.nextPart true))
        ∧ (s.lku.notices.length < 15 → ∃ n ∈ t.lku.notices, n.seq = s.lku.seq + 1#8
          ∧ n.body = .canvas s.swc.id w.strip w.occupant w.occupantState s.cfg.policy true))
    ∧ (x.errorSeen = true → ∃ t, exec .transferComplete s = .next t
      ∧ t.stripAt x.strip = some { r with state := .final, error := true }
      ∧ t.opu = { s.opu with state := .halted } ∧ t.lku.conds = { s.lku.conds with outputHalted := true }
      ∧ t.cvm.outQueue = s.cvm.outQueue ∧ t.cvm.sent = s.cvm.sent ∧ t.cvm.wait = s.cvm.wait ∧ t.blu = s.blu
      ∧ t.pins = { s.pins with sopFv := false, sopLv := false, sopLine := line 1, sopBeat := (line 1).length }
      ∧ s.Noticed t (.strip x.session x.strip .memoryError r.holes r.damaged s.opu.number)))
  ∧ ∀ (s : State) (x : Transfer),
    s.opu.state = .cutting → s.opu.xfer = some x → s.pins.sopRdy = true →
    exec .cutTrailerDone s = .next { s with
      pins := { s.pins with
        sopLine := trailerLine x s.opu.number 2, sopBeat := (trailerLine x s.opu.number 2).length
        sopLv := false, sopFv := false }
      opu := { state := .idle, number := 0, xfer := none } }

/-! ### The control link -/

/-- 11 R170, R172: at the fall of LK_SEL_N the oldest reply, else the oldest notice, is selected; its bytes are shifted out in their order, and with the last one it leaves its queue; with no message LK_DO carries 0x00; at the rise LK_DO is undriven, a message cut short stays queued whole and an incomplete inbound frame is discarded with LINK_ERROR. 11 R176: a notice takes the next sequence number and joins the queue, or with 16 queued is dropped with NOTICE_LOST. 11 R177: ATTN is high exactly while a reply or a notice waits in its queue. How bytes reach the receiver, and that MESSAGE_SENT is the host reading on with 0x00 going in, are the model's choices (notes/assumptions/32.md). -/
def Obligations.TransactionsMoveMessages : Prop :=
  (∀ s : State, s.pins.lkSelected = false →
    ∃ t, exec .linkTransactionStart s = .next t
      ∧ t = { s with pins.lkSelected := true, lku.tx := t.lku.tx }
      ∧ (∀ r rest, s.lku.replies = r :: rest → t.lku.tx = .reply r.bytes)
      ∧ (∀ n rest, s.lku.replies = [] → s.lku.notices = n :: rest → t.lku.tx = .notice n.bytes)
      ∧ (s.lku.replies = [] → s.lku.notices = [] → t.lku.tx = .nothing))
  ∧ (∀ (b b' : Byte) (rest : List Byte),
    Outbound.nextByte .undriven = none ∧ Outbound.nextByte .nothing = some 0#8
    ∧ Outbound.nextByte (.reply (b :: rest)) = some b ∧ Outbound.nextByte (.notice (b :: rest)) = some b
    ∧ Outbound.nextByte (.lost (b :: rest)) = some b
    ∧ ∀ s : State,
      (s.lku.tx = .reply (b :: b' :: rest) → s.shiftByte = { s with lku.tx := .reply (b' :: rest) })
      ∧ (s.lku.tx = .notice (b :: b' :: rest) → s.shiftByte = { s with lku.tx := .notice (b' :: rest) })
      ∧ (s.lku.tx = .lost (b :: b' :: rest) → s.shiftByte = { s with lku.tx := .lost (b' :: rest) })
      ∧ (s.lku.tx = .reply [b] →
        s.shiftByte = { s with lku.replies := s.lku.replies.tail, lku.tx := .nothing })
      ∧ (s.lku.tx = .notice [b] →
        s.shiftByte = { s with lku.notices := s.lku.notices.tail, lku.tx := .nothing })
      ∧ (s.lku.tx = .lost [b] → s.shiftByte = { s with lku.tx := .nothing })
      ∧ (s.lku.tx = .nothing ∨ s.lku.tx = .undriven → s.shiftByte = s))
  ∧ (∀ (s : State) (bytes : List Byte), s.pins.lkSelected = true → s.lku.rx = .hunt → bytes ≠ [] →
    (s.lku.tx = .reply bytes → exec .messageSent s =
      .next { s with lku.replies := s.lku.replies.tail, lku.tx := .nothing })
    ∧ (s.lku.tx = .notice bytes → exec .messageSent s =
      .next { s with lku.notices := s.lku.notices.tail, lku.tx := .nothing })
    ∧ (s.lku.tx = .lost bytes → exec .messageSent s = .next { s with lku.tx := .nothing }))
  ∧ (∀ s : State, s.pins.lkSelected = true → s.lku.rx = .hunt → exec (.linkTransactionEnd []) s =
      .next { s with pins.lkSelected := false, lku.tx := .undriven })
  ∧ (∀ (s : State) (bytes : List Byte), s.pins.lkSelected = true → s.lku.rx = .frame bytes →
      exec (.linkTransactionEnd []) s =
      .next { s with pins.lkSelected := false
                     lku := { s.lku with tx := .undriven, rx := .hunt, flags.linkError := true } })
  ∧ (∀ (s : State) (body : NoticeBody),
    (s.lku.notices.length < 16 → s.notify body = { s with
      lku.notices := s.lku.notices ++ [{ seq := s.lku.seq, body := body }], lku.seq := s.lku.seq + 1#8 })
    ∧ (16 ≤ s.lku.notices.length → s.notify body = { s with
      lku.seq := s.lku.seq + 1#8, lku.flags.noticeLost := true }))
  ∧ ∀ s : State, s.attn = true ↔ s.lku.replies ≠ [] ∨ s.lku.notices ≠ []

/-- 11 R171 to R173: the receiver in HUNT reads from the frame of any type, tag and body of at most 240 bytes exactly that request, whatever bytes other than 0xC5 come before it: with a place free it joins the request queue at its tail; with 8 requests queued it is answered QUEUE_FULL where a reply place is free, and is else lost with REQUEST_LOST. Nothing else changes but the message shifted out by as many bytes (R170), and nothing at all where no message is being sent. That the bytes decide, and that a byte goes out before the byte of the same clocks comes in, are the model's choices (notes/assumptions/32.md). -/
def Obligations.FrameOfRequestReceived : Prop :=
  (∀ (s u : State) (idle : List Byte) (type tag : Byte) (body : List Byte),
    s.pins.lkSelected = true → s.lku.rx = .hunt → (∀ b ∈ idle, b ≠ 0xC5#8) → body.length ≤ 240 →
    u = s.shifted (idle.length + body.length + 6) →
    (s.lku.requests.length < 8 → exec (.requestReceived (idle ++ frameBytes type tag body)) s =
      .next { u with lku.requests := s.lku.requests ++ [{ type := type, tag := tag, body := body }] })
    ∧ (8 ≤ s.lku.requests.length → u.lku.placesTaken < 9 →
      exec (.requestReceived (idle ++ frameBytes type tag body)) s =
        .next { u with lku.replies := u.lku.replies
                  ++ [{ type := replyType type, tag := tag, body := .result .queueFull }] })
    ∧ (8 ≤ s.lku.requests.length → 9 ≤ u.lku.placesTaken →
      exec (.requestReceived (idle ++ frameBytes type tag body)) s =
        .next { u with lku.flags.requestLost := true }))
  ∧ ∀ (s : State) (n : Nat), s.lku.tx = .nothing ∨ s.lku.tx = .undriven → s.shifted n = s

/-- 11 R172: a frame whose length byte is above 240, or whose CRC does not match, is discarded: LINK_ERROR is set, the receiver is in HUNT, and nothing else changes but the message shifted out by as many bytes (R170). That the bytes decide is the model's choice (notes/assumptions/32.md). -/
def Obligations.BadFrameDiscarded : Prop :=
  (∀ (s : State) (type tag len : Byte), s.pins.lkSelected = true → s.lku.rx = .hunt → 240 < len.toNat →
    exec (.linkFrameDiscard [0xC5#8, type, tag, len]) s =
      .next { (s.shifted 4) with lku.flags.linkError := true })
  ∧ ∀ (s : State) (type tag hi lo : Byte) (body : List Byte), s.pins.lkSelected = true →
    s.lku.rx = .hunt → body.length ≤ 240 →
    crc16 (type :: tag :: BitVec.ofNat 8 body.length :: body) ≠ hi ++ lo →
    exec (.linkFrameDiscard (0xC5#8 :: type :: tag :: BitVec.ofNat 8 body.length :: body ++ [hi, lo])) s =
      .next { (s.shifted (body.length + 6)) with lku.flags.linkError := true }

/-- 11 R172, R173, R178, R179, R181, 05 R105: the head request is dispatched when a reply place is free; a type that is not a request is answered UNKNOWN_TYPE, IDENT.GET with the fixed values, STATUS.GET with the record of R178 as it stands, field by field, after which the event flags are clear, and SESSION.SUMMARY.GET with the record of R105, field by field, in FINISHING and DONE and WRONG_STATE elsewhere. 09 R153: CUTTING is reported as SENDING. Which row answers (notes/assumptions/31.md) and that a value of IDENT.GET takes four bytes (notes/assumptions/14.md) are the model's choices. -/
def Obligations.DispatchAndQueries : Prop :=
  (∀ s : State, s.lku.executing = false → s.lku.requests ≠ [] → s.lku.replies.length < 9 →
    exec .requestDispatch s = .next { s with lku.executing := true })
  ∧ (∀ (s : State) (type tag : Byte) (body : List Byte) (rest : List Request),
      s.Executes type tag body rest → requestTypes.contains type = false →
      exec .unknownType s = .next (s.answeredOnly rest 0x80#8 tag (.unknown type)))
  ∧ (∀ (s : State) (tag : Byte) (rest : List Request), s.Executes 0x01#8 tag [] rest →
      exec .identGet s = .next (s.answeredOnly rest 0x81#8 tag .ident))
  ∧ ReplyBody.bytes .ident = 0#8 :: field 4 0x46A7 ++ field 4 0x5324 ++ field 4 1 ++ field 4 1
      ++ field 4 2048 ++ field 4 1536 ++ field 4 8 ++ field 4 64 ++ field 4 128 ++ field 4 17
      ++ field 4 4 ++ field 4 8 ++ field 4 9 ++ field 4 16
  ∧ (∀ (s : State) (tag : Byte) (rest : List Request), s.Executes 0x02#8 tag [] rest →
      ∃ t, exec .statusGet s = .next t
        ∧ t = { s with lku := { (s.lku.answered rest 0x82#8 tag (.status
            { state := s.swc.state, id := s.swc.id, endCause := s.swc.endCause, decided := s.swc.decided
              stored := s.igu.nextStored, dropped := s.igu.dropped, keyCount := s.swc.keys.length
              lock := s.tku.lock.state, pace := s.swc.pace.reported
              slotsInUse := ((List.finRange 8).filter (fun i => decide (s.slotState i ≠ .free))).length
              frontierStrip := s.blu.frontier / 128, queueLength := s.cvm.outQueue.length
              output := s.opu.state, burning := s.psc.burn.isSome
              flags := s.lku.flags, conds := s.lku.conds })) with
          flags := {} } })
  ∧ OpuState.code .idle = 0#8 ∧ OpuState.code .sending = 1#8 ∧ OpuState.code .cutting = 1#8
  ∧ OpuState.code .halted = 2#8
  ∧ ∀ (s : State) (tag : Byte) (rest : List Request), s.Executes 0x16#8 tag [] rest →
      (s.swc.state ≠ .finishing → s.swc.state ≠ .done →
        exec .sessionSummaryGet s = .next (s.answeredOnly rest 0x96#8 tag (.result .wrongState)))
      ∧ ∀ width : Int, s.swc.state = .finishing ∨ s.swc.state = .done →
        (∀ um, s.cvm.um = some um → width = um) →
        (∀ k, s.cvm.um = none → s.swc.keys.getLast? = some k → width = (k.u + 8) / 16 + s.cfg.wf) →
        (s.cvm.um = none → s.swc.keys = [] → width = 0) →
        exec .sessionSummaryGet s = .next (s.answeredOnly rest 0x96#8 tag (.summary
          { id := s.swc.id, endCause := s.swc.endCause, keyCount := s.swc.keys.length
            bridged := (s.swc.keys.filter (fun k => decide (k.source = .bridged))).length
            stored := s.igu.nextStored, dropped := s.igu.dropped, canvasWidth := width
            sent := s.cvm.sent, discarded := s.cvm.discarded, skipped := s.cvm.skipped
            damaged := s.cvm.damaged, closureResult := s.cvm.closureResult
            um := s.cvm.um, vres := s.cvm.vres }))

/-- 04 R79, 11 R182: KEY.GET gives the record of a key in the table and up to 64 entries of its seam list, NOT_FOUND for an index at or above the key count and BAD_FIELD for one above 63; STRIP.GET gives the record and place of a strip in the table, NOT_FOUND for one not there and BAD_FIELD above 1,023. Which row answers is the model's choice (notes/assumptions/31.md). -/
def Obligations.TablesRead : Prop :=
  (∀ (s : State) (tag : Byte) (rest : List Request) (k row : Nat), k < 256 → row < 2 ^ 31 →
    s.Executes 0x18#8 tag (field 1 k ++ field 4 row) rest →
    exec .keyGet s = .next (s.answeredOnly rest 0x98#8 tag
      (if 63 < k then .result .badField
       else match s.swc.keys[k]? with
        | none => .result .notFound
        | some r => .key r (((r.seam.getD []).drop row).take 64))))
  ∧ ∀ (s : State) (tag : Byte) (rest : List Request) (j : Nat), j < 65536 →
    s.Executes 0x19#8 tag (field 2 j) rest →
    exec .stripGet s = .next (s.answeredOnly rest 0x99#8 tag
      (if 1023 < j then .result .badField
       else match s.stripAt j with
        | none => .result .notFound
        | some r => .strip r (placeIn j s.cvm.outQueue)))

/-- 11 R180: FAULT.CLEAR of one condition: a name that is not a condition is refused BAD_FIELD, OUTPUT_HALTED is refused WRONG_STATE, PROFILE_BAD and BURN_FAILED are cleared, and an empty set clears nothing. -/
def Obligations.FaultsCleared : Prop :=
  (∀ (s : State) (tag place : Byte) (rest : List Request), s.Executes 0x03#8 tag [1#8, place] rest →
    (3 ≤ place.toNat → exec .faultClear s = .next (s.answeredOnly rest 0x83#8 tag (.result .badField)))
    ∧ (place = 0#8 → exec .faultClear s = .next (s.answeredOnly rest 0x83#8 tag (.result .wrongState)))
    ∧ (place = 1#8 → exec .faultClear s = .next { s with
        lku := { (s.lku.answered rest 0x83#8 tag (.conditions { s.lku.conds with profileBad := false })) with
          conds.profileBad := false } })
    ∧ (place = 2#8 → exec .faultClear s = .next { s with
        lku := { (s.lku.answered rest 0x83#8 tag (.conditions { s.lku.conds with burnFailed := false })) with
          conds.burnFailed := false } }))
  ∧ ∀ (s : State) (tag : Byte) (rest : List Request), s.Executes 0x03#8 tag [0#8] rest →
    exec .faultClear s = .next (s.answeredOnly rest 0x83#8 tag (.conditions s.lku.conds))

/-- 03 R48: GYRO.PUT in a storing state adds each increment, clamped to 200,000 either way, to its sum, clamped to 2,000,000 either way, and sets the received mark; elsewhere it is answered OK with no effect. No flag is set, and gyro_use has no say. SESSION.START, pin reset, ENGINE.RESET, SESSION.ABORT and SESSION.RELEASE clear the accumulator. -/
def Obligations.GyroSumsIncrements : Prop :=
  (∀ (s : State) (tag : Byte) (rest : List Request) (yaw pitch : Int),
    -(2 ^ 31) ≤ yaw → yaw < 2 ^ 31 → -(2 ^ 31) ≤ pitch → pitch < 2 ^ 31 →
    s.Executes 0x20#8 tag (field 4 yaw ++ field 4 pitch) rest →
    (s.storing = true → exec .gyroPut s = .next { (s.answeredOnly rest 0xA0#8 tag (.result .ok)) with
      tku.gyro :=
        { yaw := max (-2000000) (min 2000000 (s.tku.gyro.yaw + max (-200000) (min 200000 yaw)))
          pitch := max (-2000000) (min 2000000 (s.tku.gyro.pitch + max (-200000) (min 200000 pitch)))
          received := true } })
    ∧ (s.storing = false → exec .gyroPut s = .next (s.answeredOnly rest 0xA0#8 tag (.result .ok))))
  ∧ (∀ (s : State) (tag : Byte) (rest : List Request),
    (s.swc.state = .armed → s.Executes 0x11#8 tag [] rest →
      ∃ t, exec .sessionStart s = .next t ∧ t.tku.gyro = { yaw := 0, pitch := 0, received := false })
    ∧ (s.swc.state ≠ .idle → s.Executes 0x14#8 tag [] rest →
      ∃ t, exec .sessionAbort s = .next t ∧ t.tku.gyro = { yaw := 0, pitch := 0, received := false })
    ∧ (s.swc.state = .done → s.Executes 0x15#8 tag [] rest →
      ∃ t, exec .sessionRelease s = .next t ∧ t.tku.gyro = { yaw := 0, pitch := 0, received := false })
    ∧ (s.psc.burn = none → s.Executes 0x3F#8 tag [] rest →
      ∃ t, exec .engineReset s = .next t ∧ t.tku.gyro = { yaw := 0, pitch := 0, received := false }))
  ∧ ∀ s : State,
    ∃ t, exec .pinReset s = .next t ∧ t.tku.gyro = { yaw := 0, pitch := 0, received := false }

/-! ### Session requests -/

/-- 05 R82, R85: SESSION.ARM outside IDLE and ARMED is refused WRONG_STATE; a body that passes its checks makes the build begin and the reply wait; once the map is built the key table is empty, the direction undecided, the configuration in force, the id counted on, the state ARMED, and the reply sent. 05 R82, R83: what a body of 22 marked fields comes to: the first field that fails its row of the table is refused BAD_FIELD with its place; else each field takes its value, clamped where its row says so, and slow_frames at least fast_frames + 2; then the named slot must be valid, its f16 must fit the frame width, and a full circle must fit max_strips. Where PREVIOUS holds a configuration is deduced (notes/assumptions/20.md), the coding of the fields is the model's reading (notes/assumptions/14.md), and that COLUMN_MAP_BUILT completes the head request is the model's choice (notes/assumptions/31.md). -/
def Obligations.ArmSteps : Prop :=
  (∀ (s : State) (tag : Byte) (body : List Byte) (rest : List Request), s.Executes 0x10#8 tag body rest →
    s.swc.arming = none →
    (s.swc.state ≠ .idle → s.swc.state ≠ .armed →
      exec .sessionArm s = .next (s.answeredOnly rest 0x90#8 tag (.result .wrongState)))
    ∧ (∀ c, s.swc.state = .idle ∨ s.swc.state = .armed → s.armOutcome body = .ok c →
      exec .sessionArm s = .next { s with swc.arming := some c, igu.columnMap := none })
    ∧ (∀ e, s.swc.state = .idle ∨ s.swc.state = .armed → s.armOutcome body = .error e →
      exec .sessionArm s = .next (s.answeredOnly rest 0x90#8 tag (.refusedField e.1 e.2))))
  ∧ (∀ (s : State) (tag : Byte) (body : List Byte) (rest : List Request) (c : SessionConfig),
    s.Executes 0x10#8 tag body rest → s.swc.arming = some c →
    (s.swc.state = .idle ∨ s.swc.state = .armed) →
    ∃ t, exec .columnMapBuilt s = .next t ∧ t.swc.state = .armed ∧ t.swc.config = some c
      ∧ t.swc.keys = [] ∧ t.swc.pendingTunables = none ∧ t.swc.decided = none
      ∧ t.swc.id = (if s.swc.id = 65535 then 1 else s.swc.id + 1)
      ∧ t.igu = { s.igu with columnMap := some (buildMap c) } ∧ t.lku.requests = rest
      ∧ t.lku.replies = s.lku.replies ++ [{ type := 0x90#8, tag := tag, body := .armed t.swc.id c }]
      ∧ s.Noticed t (.session t.swc.id s.swc.state .armed none none 0 s.igu.nextStored))
  ∧ (∀ s : State, (s.swc.state = .idle → s.previousCodes = s.swc.config.map SessionConfig.codes)
    ∧ (s.swc.state ≠ .idle → s.previousCodes = none))
  ∧ (∀ (s : State) (marks : List FieldMark) (i : Nat) (row : ArmRow) (m : FieldMark), marks.length = 22 →
    (∀ (j : Nat) (row' : ArmRow) (v : Nat), armTable[j]? = some row' → marks[j]? = some (.value v) →
      v < 256 ^ row'.bytes) →
    (∀ (j : Nat) (row' : ArmRow) (m' : FieldMark), j < i → armTable[j]? = some row' → marks[j]? = some m' →
      armField s.previousCodes j row' m' ≠ none) →
    armTable[i]? = some row → marks[i]? = some m → armField s.previousCodes i row m = none →
    s.armOutcome (armBytes marks) = .error (.badField, some i))
  ∧ ∀ (s : State) (marks : List FieldMark) (given : List (Option Nat)) (vals : List Nat) (slot : ShadowSlot),
    marks.length = 22 → given.length = 22 →
    (∀ (j : Nat) (row : ArmRow) (v : Nat), armTable[j]? = some row → marks[j]? = some (.value v) →
      v < 256 ^ row.bytes) →
    (∀ (j : Nat) (row : ArmRow) (m : FieldMark), armTable[j]? = some row → marks[j]? = some m →
      armField s.previousCodes j row m = given[j]?) →
    slot = s.psc.shadow.slots.toList.getD ((given.getD 2 (some 0)).getD 0) { valid := false, fields := default } →
    vals = given.map (fun v => v.getD slot.fields.textureMin) →
    ∃ c : SessionConfig, c.codes = vals.set 14 (max (vals.getD 14 0) (vals.getD 13 0 + 2))
      ∧ c.f16 = slot.fields.f16 ∧ c.cxOff = slot.fields.cxOff ∧ c.cyOff = slot.fields.cyOff
      ∧ s.armOutcome (armBytes marks) =
        (if slot.valid = false then .error (.profileInvalid, some 2)
         else if c.f16 < 8 * c.wf ∨ 256 * c.wf < c.f16 then .error (.badField, some 2)
         else if c.extent = .fullCircle ∧ (c.maxStrips : Int) < ceilDiv (103 * c.uc) 12800 + 1 then
           .error (.badField, some 4)
         else .ok c)

/-- 05 R86, R88, R101: START in ARMED enters CALIBRATING or SWEEPING by the configured direction with the counts, the gyro-since-key mark and the motion state cleared, the pace state at reported OK and a SESSION notice (R89), and is refused elsewhere; TUNE clamps each value to its range, is refused BAD_FIELD as a whole when it names any other field, applies at once in ARMED, is held pending in the storing states and is refused elsewhere; R83, R87: applied values replace those in force, with slow_frames at least fast_frames + 2; STOP ends the sweep with USER_STOP and a SESSION notice in the storing states unless a closure is pending, and is refused elsewhere. The check of a TUNE body before the state, the refusal of a count of 0 and the later of two values (notes/assumptions/24.md) and the coding of the items (notes/assumptions/14.md) are the model's reading. -/
def Obligations.StartTuneStop : Prop :=
  (∀ (s : State) (tag : Byte) (rest : List Request), s.Executes 0x11#8 tag [] rest →
    (s.swc.state = .armed → ∃ t, exec .sessionStart s = .next t
      ∧ t.swc.state = (match s.cfg.direction with | .auto => .calibrating | .left => .sweeping | .right => .sweeping)
      ∧ t.swc.decided = (match s.cfg.direction with | .auto => none | .left => some .left | .right => some .right)
      ∧ t.igu.nextStored = 0 ∧ t.igu.dropped = 0 ∧ t.igu.geoRun = 0 ∧ t.igu.lastCounter = none
      ∧ t.tku.gyro = {} ∧ t.tku.held = (0, 0) ∧ t.tku.step = (0, 0) ∧ t.swc.highWater = none
      ∧ t.swc.stallCount = 0 ∧ t.swc.cal = {} ∧ t.swc.framesPerKey = 0 ∧ t.swc.gyroSinceKey = false
      ∧ t.swc.pace = { reported := .ok, candidate := none, run := 0 } ∧ t.swc.endCause = none ∧ t.blu.frontier = 0
      ∧ t.lku.requests = rest
      ∧ t.lku.replies = s.lku.replies ++ [{ type := 0x91#8, tag := tag, body := .result .ok }]
      ∧ t.blu.mark = none ∧ t.igu.slots = s.igu.slots ∧ t.swc.pendingTunables = s.swc.pendingTunables
      ∧ s.Noticed t (.session s.swc.id .armed t.swc.state none t.swc.decided s.swc.keys.length 0))
    ∧ (s.swc.state ≠ .armed →
      exec .sessionStart s = .next (s.answeredOnly rest 0x91#8 tag (.result .wrongState))))
  ∧ (∀ (s : State) (tag : Byte) (body : List Byte) (rest : List Request) (u : Tunables) (c : SessionConfig),
    s.Executes 0x12#8 tag body rest → tuneBody body = some u → s.swc.config = some c →
    (s.swc.state = .armed → exec .sessionTune s = .next { (s.answeredOnly rest 0x92#8 tag (.tunables (c.tune u))) with
      swc.config := some (c.tune u) })
    ∧ (s.storing = true → exec .sessionTune s = .next { (s.answeredOnly rest 0x92#8 tag (.pendingSet u)) with
      swc.pendingTunables := some u })
    ∧ (s.swc.state = .idle ∨ s.swc.state = .finishing ∨ s.swc.state = .done →
      exec .sessionTune s = .next (s.answeredOnly rest 0x92#8 tag (.result .wrongState))))
  ∧ (∀ items : List (Nat × Nat), items ≠ [] → items.length < 256 → TuneItems items →
    tuneBody (BitVec.ofNat 8 items.length :: items.flatMap tuneItem) = some
      { overlapPct := tunedTo items 0, radius := tunedTo items 1, lockCount := tunedTo items 2
        coastLimit := tunedTo items 3, fastFrames := tunedTo items 4, slowFrames := tunedTo items 5
        stallFrames := tunedTo items 6 })
  ∧ (∀ (items : List (Nat × Nat)) (n place : Byte) (more : List Byte), TuneItems items →
    items.length < n.toNat → 7 ≤ place.toNat → tuneBody (n :: items.flatMap tuneItem ++ place :: more) = none)
  ∧ tuneBody [0#8] = none
  ∧ (∀ (s : State) (tag : Byte) (body : List Byte) (rest : List Request), s.Executes 0x12#8 tag body rest →
    tuneBody body = none →
    exec .sessionTune s = .next (s.answeredOnly rest 0x92#8 tag (.result .badField)))
  ∧ (∀ (c : SessionConfig) (u : Tunables), c.tune u = { c with
      overlapPct := u.overlapPct.getD c.overlapPct
      radius := u.radius.getD c.radius
      lockCount := u.lockCount.getD c.lockCount
      coastLimit := u.coastLimit.getD c.coastLimit
      fastFrames := u.fastFrames.getD c.fastFrames
      slowFrames := max (u.slowFrames.getD c.slowFrames) (u.fastFrames.getD c.fastFrames + 2)
      stallFrames := u.stallFrames.getD c.stallFrames })
  ∧ ∀ (s : State) (tag : Byte) (rest : List Request), s.Executes 0x13#8 tag [] rest →
    (s.storing = true → s.swc.closurePending = false → ∃ t, exec .sessionStop s = .next t
      ∧ t.swc.endCause = some .userStop ∧ (t.swc.state = .finishing ∨ t.swc.state = .done)
      ∧ t.swc.keys = s.swc.keys ∧ t.lku.requests = rest
      ∧ t.lku.replies = s.lku.replies ++ [{ type := 0x93#8, tag := tag, body := .result .ok }]
      ∧ s.Noticed t (.session s.swc.id s.swc.state .finishing (some .userStop) s.swc.decided
          s.swc.keys.length s.igu.nextStored))
    ∧ (s.storing = false ∨ s.swc.closurePending = true →
      exec .sessionStop s = .next (s.answeredOnly rest 0x93#8 tag (.result .wrongState)))

/-- 05 R102, R103, 01 R14, 08 R152: ABORT, refused in IDLE, and RELEASE, taken in DONE only, bring the session to IDLE with keys, patch sets, motion, lock, strips and counts cleared and every slot FREE, and queue a SESSION notice; the id and, as the previous one, the configuration are kept. ABORT discards the column map and the stored-frame state, RELEASE keeps them. 09 R160, 10 R169: at an ABORT a transfer is cut off, its line in progress ending at the beat reached, a halt stays, and an access in progress completes for no one. What the SESSION notice carries is deduced (notes/assumptions/25.md). -/
def Obligations.AbortAndRelease : Prop :=
  (∀ (s : State) (tag : Byte) (rest : List Request), s.Executes 0x14#8 tag [] rest →
    (s.swc.state = .idle → exec .sessionAbort s = .next (s.answeredOnly rest 0x94#8 tag (.result .wrongState)))
    ∧ (s.swc.state ≠ .idle → ∃ t, exec .sessionAbort s = .next t ∧ t.igu = Igu.reset ∧ t.tku = Tku.reset
      ∧ t.swc = { Swc.reset with id := s.swc.id, config := s.swc.config } ∧ t.smu = Smu.reset
      ∧ t.blu = Blu.reset ∧ t.cvm = Cvm.reset ∧ t.mem = s.mem ∧ t.ecc = s.ecc ∧ t.psc = s.psc
      ∧ t.grant = s.grant.map (fun g => { g with live := false })
      ∧ (s.opu.state = .sending → t.opu.state = .cutting ∧ t.opu.number = s.opu.number
        ∧ t.pins = { s.pins with sopLv := false, sopLine := s.pins.sopLine.take s.pins.sopBeat }
        ∧ ∀ x r, s.opu.xfer = some x → s.stripAt x.strip = some r →
          t.opu.xfer = some { x with holes := r.holes, flags := s.stripFlags r, rd := {}, trailer := false })
      ∧ (s.opu.state = .cutting → t.opu = s.opu ∧ t.pins = s.pins)
      ∧ (s.opu.state = .idle ∨ s.opu.state = .halted →
        t.opu = { state := s.opu.state, number := 0, xfer := none } ∧ t.pins = s.pins)
      ∧ t.lku.conds = s.lku.conds
      ∧ s.Noticed t (.session s.swc.id s.swc.state .idle none none 0 0)))
  ∧ ∀ (s : State) (tag : Byte) (rest : List Request), s.Executes 0x15#8 tag [] rest →
    (s.swc.state ≠ .done → exec .sessionRelease s = .next (s.answeredOnly rest 0x95#8 tag (.result .wrongState)))
    ∧ (s.swc.state = .done → ∃ t, exec .sessionRelease s = .next t
      ∧ t.igu = { s.igu with slots := Igu.reset.slots } ∧ t.tku = Tku.reset
      ∧ t.swc = { Swc.reset with id := s.swc.id, config := s.swc.config } ∧ t.cvm = Cvm.reset
      ∧ t.blu.frontier = 0 ∧ t.blu.mark = s.blu.mark ∧ t.opu = s.opu ∧ t.mem = s.mem ∧ t.psc = s.psc
      ∧ s.Noticed t (.session s.swc.id .done .idle none none 0 s.igu.nextStored))

/-- 09 R159: OUTPUT.RESUME when OPU is not HALTED is refused WRONG_STATE; an unknown action is refused BAD_FIELD. With no halted strip at the head of the queue either action ends the halt, answers OK, queues no notice and, while FINISHING has work left as it always has (Obligations.FinalKeyMarked), changes nothing else but what waits for the memory port. RETRY clears the head strip's mark and ends the halt; SKIP takes the strip out of table and queue, counts it, queues a STRIP notice SKIPPED and ends the halt; 08 R141: a wait on its slot ends, the strip waited for is OPEN, BLU writes on and a CANVAS notice of the end is queued, and any other wait stays. That the notice of the end of a wait repeats the occupant's state of its start is deduced (notes/assumptions/17.md), and that either row refuses an unknown action is the model's choice (notes/assumptions/31.md). -/
def Obligations.OutputResumes : Prop :=
  (∀ (s : State) (tag : Byte) (rest : List Request),
    (s.Executes 0x21#8 tag [0#8] rest → s.opu.state ≠ .halted →
      exec .outputResumeRetry s = .next (s.answeredOnly rest 0xA1#8 tag (.result .wrongState)))
    ∧ (s.Executes 0x21#8 tag [1#8] rest → s.opu.state ≠ .halted →
      exec .outputResumeSkip s = .next (s.answeredOnly rest 0xA1#8 tag (.result .wrongState)))
    ∧ (∀ a : Byte, 2 ≤ a.toNat → s.Executes 0x21#8 tag [a] rest →
      exec .outputResumeRetry s = .next (s.answeredOnly rest 0xA1#8 tag (.result .badField))
      ∧ exec .outputResumeSkip s = .next (s.answeredOnly rest 0xA1#8 tag (.result .badField))))
  ∧ (∀ (s : State) (tag : Byte) (rest : List Request), s.opu.state = .halted →
    (∀ j q r, s.cvm.outQueue = j :: q → s.stripAt j = some r → r.error = false) →
    (s.Executes 0x21#8 tag [0#8] rest → ∃ t, exec .outputResumeRetry s = .next t
      ∧ s.HaltEnded t rest tag ∧ t.cvm = s.cvm)
    ∧ (s.Executes 0x21#8 tag [1#8] rest → ∃ t, exec .outputResumeSkip s = .next t
      ∧ s.HaltEnded t rest tag ∧ t.cvm = s.cvm))
  ∧ ∀ (s : State) (tag : Byte) (rest : List Request) (j : Nat) (q : List Nat) (r : Strip),
    s.opu.state = .halted → s.cvm.outQueue = j :: q → s.stripAt j = some r → r.error = true →
    (s.Executes 0x21#8 tag [0#8] rest → ∃ t, exec .outputResumeRetry s = .next t
      ∧ t.stripAt j = some { r with error := false }
      ∧ t.cvm = { s.cvm with
          strips := s.cvm.strips.map (fun q => if q.index = j then { q with error := false } else q) }
      ∧ s.HaltEnded t rest tag)
    ∧ (s.Executes 0x21#8 tag [1#8] rest → (∀ w, s.cvm.wait = some w → w.strip ≠ j) →
      ∃ t, exec .outputResumeSkip s = .next t
      ∧ t.stripAt j = none ∧ j ∉ t.cvm.outQueue ∧ t.cvm.skipped = min 65535 (s.cvm.skipped + 1)
      ∧ t.cvm.damaged = (if r.damaged = true then min 65535 (s.cvm.damaged + 1) else s.cvm.damaged)
      ∧ t.opu = { state := .idle, number := 0, xfer := none }
      ∧ t.lku.conds = { s.lku.conds with outputHalted := false } ∧ t.lku.requests = rest
      ∧ t.lku.replies = s.lku.replies ++ [{ type := 0xA1#8, tag := tag, body := .result .ok }]
      ∧ t.swc.keys = s.swc.keys ∧ (s.swc.state ≠ .finishing → t.swc = s.swc ∧ t.igu = s.igu)
      ∧ s.Noticed t (.strip s.swc.id j .skipped r.holes r.damaged s.opu.number)
      ∧ ((∀ w, s.cvm.wait = some w → w.occupant ≠ j) → t.cvm.wait = s.cvm.wait ∧ t.blu = s.blu)
      ∧ ∀ w, s.cvm.wait = some w → w.occupant = j → s.stripAt w.strip = none →
        t.cvm.wait = none ∧ t.blu.state = .writing
        ∧ (∃ p, t.stripAt w.strip = some p ∧ p.state = .opened ∧ p.slot = s.slotOfStrip w.strip)
        ∧ (∀ run, s.blu.run = some run → ∃ run', t.blu.run = some run' ∧ run'.part = some (run.nextPart true))
        ∧ (s.lku.notices.length < 15 → ∃ n ∈ t.lku.notices, n.seq = s.lku.seq + 1#8
          ∧ n.body = .canvas s.swc.id w.strip w.occupant w.occupantState s.cfg.policy true))

/-! ### The profile store and the resets -/

/-- 12 R186: PROFILE.STAGE, in every session state: refused BUSY while a burn runs, then BAD_FIELD naming the first field outside its range; else the record is staged in place of any staged before. Nothing else changes but the answer. Which field is named, when several are outside their ranges, is the model's choice (notes/assumptions/14.md). -/
def Obligations.ProfileStaged : Prop :=
  (∀ (s : State) (tag : Byte) (body : List Byte) (rest : List Request), s.Executes 0x31#8 tag body rest →
    s.psc.burn.isSome = true → exec .profileStage s = .next (s.answeredOnly rest 0xB1#8 tag (.result .busy)))
  ∧ ∀ (s : State) (tag : Byte) (rest : List Request) (f : ProfileFields), f.fits = true →
    s.Executes 0x31#8 tag (profileBytes f) rest → s.psc.burn = none →
    exec .profileStage s = .next (
      if f.f16 < 1 ∨ 1048575 < f.f16 then s.answeredOnly rest 0xB1#8 tag (.refusedField .badField (some 0))
      else if f.cxOff < -16384 ∨ 16384 < f.cxOff then
        s.answeredOnly rest 0xB1#8 tag (.refusedField .badField (some 1))
      else if f.cyOff < -16384 ∨ 16384 < f.cyOff then
        s.answeredOnly rest 0xB1#8 tag (.refusedField .badField (some 2))
      else { (s.answeredOnly rest 0xB1#8 tag (.result .ok)) with psc.stage := some f })

/-- 12 R187, R188: the checks of PROFILE.BURN (slot, NOT_STAGED, PROTECTED, LOCKED, WRONG_STATE, BUSY), PROFILE.PROTECT (mask, LOCKED, WRONG_STATE, BUSY) and PROFILE.LOCK (LOCKED, WRONG_STATE, BUSY), each in its order; a refused request changes nothing but the answer, and an accepted one makes the burn run with its target and record and answers OK at once. -/
def Obligations.BurnRequestsChecked : Prop :=
  (∀ (s : State) (tag slot : Byte) (rest : List Request), s.Executes 0x32#8 tag [slot] rest →
    (4 ≤ slot.toNat → exec .profileBurn s = .next (s.answeredOnly rest 0xB2#8 tag (.result .badField)))
    ∧ ∀ i : Fin 4, slot = BitVec.ofNat 8 i.val → exec .profileBurn s = .next (match s.psc.stage with
      | none => s.answeredOnly rest 0xB2#8 tag (.result .notStaged)
      | some f =>
        if s.psc.shadow.mask.getLsbD i.val then s.answeredOnly rest 0xB2#8 tag (.result .isProtected)
        else if i = 0 ∧ s.psc.shadow.locked = true then s.answeredOnly rest 0xB2#8 tag (.result .isLocked)
        else if s.swc.state ≠ .idle then s.answeredOnly rest 0xB2#8 tag (.result .wrongState)
        else if s.psc.burn.isSome then s.answeredOnly rest 0xB2#8 tag (.result .busy)
        else { (s.answeredOnly rest 0xB2#8 tag (.result .ok)) with psc.burn := some (.profile i f) }))
  ∧ (∀ (s : State) (tag : Byte) (rest : List Request) (m : Byte), s.Executes 0x33#8 tag [m] rest →
    exec .profileProtect s = .next (
      if 16 ≤ m.toNat then s.answeredOnly rest 0xB3#8 tag (.result .badField)
      else if s.psc.shadow.locked then s.answeredOnly rest 0xB3#8 tag (.result .isLocked)
      else if s.swc.state ≠ .idle then s.answeredOnly rest 0xB3#8 tag (.result .wrongState)
      else if s.psc.burn.isSome then s.answeredOnly rest 0xB3#8 tag (.result .busy)
      else { (s.answeredOnly rest 0xB3#8 tag (.result .ok)) with
        psc.burn := some (.protect { mask := m.setWidth 4, locked := false }) }))
  ∧ ∀ (s : State) (tag : Byte) (rest : List Request), s.Executes 0x34#8 tag [] rest →
    exec .profileLock s = .next (
      if s.psc.shadow.locked then s.answeredOnly rest 0xB4#8 tag (.result .isLocked)
      else if s.swc.state ≠ .idle then s.answeredOnly rest 0xB4#8 tag (.result .wrongState)
      else if s.psc.burn.isSome then s.answeredOnly rest 0xB4#8 tag (.result .busy)
      else { (s.answeredOnly rest 0xB4#8 tag (.result .ok)) with
        psc.burn := some (.lock { mask := s.psc.shadow.mask, locked := true }) })

/-- 12 R185: PROFILE.RELOAD is refused BUSY while a burn runs, then WRONG_STATE outside IDLE; else each shadow slot is valid exactly when its record's CRC is good, and then holds the record's fields, mask and lock come from a good protection record, a bad one gives mask 0xF and lock 0, and any bad record sets PROFILE_BAD. 12 R190: PROFILE.READ is refused BAD_FIELD for a name that is no slot and not the protection record (name 4, the model's reading: notes/assumptions/14.md), then BUSY; else it answers the named record as it stands in the store, with the state of its CRC. -/
def Obligations.ReloadAndRead : Prop :=
  (∀ (s : State) (tag : Byte) (rest : List Request), s.Executes 0x35#8 tag [] rest →
    (s.psc.burn.isSome = true → exec .profileReload s = .next (s.answeredOnly rest 0xB5#8 tag (.result .busy)))
    ∧ (s.psc.burn = none → s.swc.state ≠ .idle →
      exec .profileReload s = .next (s.answeredOnly rest 0xB5#8 tag (.result .wrongState)))
    ∧ (s.psc.burn = none → s.swc.state = .idle → ∃ t, exec .profileReload s = .next t
      ∧ (∀ i : Fin 4, t.psc.shadow.slots[i].valid
            = decide (s.psc.profiles[i].crc = profileCrc s.psc.profiles[i].fields)
        ∧ (t.psc.shadow.slots[i].valid = true →
            t.psc.shadow.slots[i].fields = s.psc.profiles[i].fields))
      ∧ (s.psc.protection.crc = protectionCrc s.psc.protection.fields →
          t.psc.shadow.mask = s.psc.protection.fields.mask
          ∧ t.psc.shadow.locked = s.psc.protection.fields.locked)
      ∧ (s.psc.protection.crc ≠ protectionCrc s.psc.protection.fields →
          t.psc.shadow.mask = 0xF#4 ∧ t.psc.shadow.locked = false ∧ t.lku.conds.profileBad = true)
      ∧ (∀ i : Fin 4, s.psc.profiles[i].crc ≠ profileCrc s.psc.profiles[i].fields →
          t.lku.conds.profileBad = true)
      ∧ t.psc.profiles = s.psc.profiles ∧ t.psc.protection = s.psc.protection ∧ t.psc.stage = s.psc.stage))
  ∧ ∀ (s : State) (tag name : Byte) (rest : List Request), s.Executes 0x30#8 tag [name] rest →
    (4 < name.toNat → exec .profileRead s = .next (s.answeredOnly rest 0xB0#8 tag (.result .badField)))
    ∧ (name.toNat ≤ 4 → s.psc.burn.isSome = true →
      exec .profileRead s = .next (s.answeredOnly rest 0xB0#8 tag (.result .busy)))
    ∧ (∀ i : Fin 4, name = BitVec.ofNat 8 i.val → s.psc.burn = none →
      exec .profileRead s = .next (s.answeredOnly rest 0xB0#8 tag (.profile s.psc.profiles[i].fields
        (decide (s.psc.profiles[i].crc = profileCrc s.psc.profiles[i].fields)))))
    ∧ (name = 4#8 → s.psc.burn = none →
      exec .profileRead s = .next (s.answeredOnly rest 0xB0#8 tag (.protection s.psc.protection.fields
        (decide (s.psc.protection.crc = protectionCrc s.psc.protection.fields)))))

/-- 12 R189: a burn whose read-back finds what was meant stores the record with a good CRC, empties the stage buffer after a profile burn and leaves it after PROTECT or LOCK, and queues a BURN notice OK; one whose read-back finds other fields or a wrong CRC leaves the record as found with a bad CRC, inverted where the one found matches the faulty fields, sets BURN_FAILED, keeps the stage buffer and queues a BURN notice FAILED. None changes the shadow or another record. What a read-back can find is the model's choice (notes/assumptions/28.md). -/
def Obligations.BurnCompletes : Prop :=
  (∀ (s : State) (i : Fin 4) (f : ProfileFields), s.psc.burn = some (.profile i f) →
    (∃ t, exec (.burnComplete .asMeant) s = .next t
      ∧ exec (.burnComplete (.profile f (profileCrc f))) s = .next t
      ∧ t.psc = { s.psc with profiles := s.psc.profiles.set i { fields := f, crc := profileCrc f }
                             stage := none, burn := none }
      ∧ t.lku.conds = s.lku.conds ∧ s.Noticed t (.burn s.swc.id (.profile i f) true))
    ∧ ∀ (g : ProfileFields) (crc : BitVec 16), g ≠ f ∨ crc ≠ profileCrc f →
      ∃ t, exec (.burnComplete (.profile g crc)) s = .next t
      ∧ t.psc = { s.psc with
          profiles := s.psc.profiles.set i
            { fields := g, crc := if crc = profileCrc g then ~~~ crc else crc }
          burn := none }
      ∧ t.psc.profiles[i].crc ≠ profileCrc t.psc.profiles[i].fields
      ∧ t.lku.conds = { s.lku.conds with burnFailed := true }
      ∧ s.Noticed t (.burn s.swc.id (.profile i f) false))
  ∧ ∀ (s : State) (job : BurnJob) (f : ProtectionFields), s.psc.burn = some job →
    job = .protect f ∨ job = .lock f →
    (∃ t, exec (.burnComplete .asMeant) s = .next t
      ∧ exec (.burnComplete (.protection f (protectionCrc f))) s = .next t
      ∧ t.psc = { s.psc with protection := { fields := f, crc := protectionCrc f }, burn := none }
      ∧ t.lku.conds = s.lku.conds ∧ s.Noticed t (.burn s.swc.id job true))
    ∧ ∀ (g : ProtectionFields) (crc : BitVec 16), g ≠ f ∨ crc ≠ protectionCrc f →
      ∃ t, exec (.burnComplete (.protection g crc)) s = .next t
      ∧ t.psc = { s.psc with
          protection := { fields := g, crc := if crc = protectionCrc g then ~~~ crc else crc }
          burn := none }
      ∧ t.psc.protection.crc ≠ protectionCrc t.psc.protection.fields
      ∧ t.lku.conds = { s.lku.conds with burnFailed := true }
      ∧ s.Noticed t (.burn s.swc.id job false)

/-- 05 R104, 11 R183, 09 R160, 12 R184, R185, 10 R169: ENGINE.RESET is refused BUSY during a burn; else it clears what ABORT clears, the previous configuration, the notice queue, OUTPUT_HALTED and BURN_FAILED, answers OK and queues no notice; a notice being shifted out is lost, a transfer is cut off with its line in progress ending at the beat reached, a halt ends, an access in progress completes for no one, and the id, PROFILE_BAD, the event flags, the store, the stage buffer and the shadow stay. Pin reset brings every block to its reset values: the link's queues, flags and receiver are empty, LK_DO is undriven, SOP_FV and SOP_LV are low, and the input pins keep their levels. Memory and its marks stay but for the word of a write that is cut off; the store stays but for the target of a burn that is cut off, whose CRC is then bad; and the shadow and PROFILE_BAD are as the load gives them. The clears of ENGINE.RESET in every state are deduced (notes/assumptions/30.md), and what LK_SEL_N low at pin reset means is the model's choice (notes/assumptions/29.md). -/
def Obligations.ResetsLeave : Prop :=
  (∀ (s : State) (tag : Byte) (rest : List Request), s.Executes 0x3F#8 tag [] rest →
    (s.psc.burn.isSome = true → exec .engineReset s = .next (s.answeredOnly rest 0xBF#8 tag (.result .busy)))
    ∧ (s.psc.burn = none → ∃ t, exec .engineReset s = .next t
      ∧ t = { s with
          pins := t.pins, opu := t.opu
          igu := Igu.reset, tku := Tku.reset, swc := { Swc.reset with id := s.swc.id }, smu := Smu.reset
          blu := Blu.reset, cvm := Cvm.reset
          grant := s.grant.map (fun g => { g with live := false })
          lku := { s.lku with
            requests := rest, executing := false
            replies := s.lku.replies ++ [{ type := 0xBF#8, tag := tag, body := .result .ok }]
            notices := []
            conds := { outputHalted := false, profileBad := s.lku.conds.profileBad, burnFailed := false }
            tx := t.lku.tx } }
      ∧ (∀ bytes, s.lku.tx = .notice bytes → t.lku.tx = .lost bytes)
      ∧ ((∀ bytes, s.lku.tx ≠ .notice bytes) → t.lku.tx = s.lku.tx)
      ∧ (s.opu.state = .sending → t.opu.state = .cutting ∧ t.opu.number = s.opu.number
        ∧ t.pins = { s.pins with sopLv := false, sopLine := s.pins.sopLine.take s.pins.sopBeat }
        ∧ ∀ x r, s.opu.xfer = some x → s.stripAt x.strip = some r →
          t.opu.xfer = some { x with holes := r.holes, flags := s.stripFlags r, rd := {}, trailer := false })
      ∧ (s.opu.state = .cutting → t.opu = s.opu ∧ t.pins = s.pins)
      ∧ (s.opu.state = .idle ∨ s.opu.state = .halted →
        t.opu = { state := .idle, number := 0, xfer := none } ∧ t.pins = s.pins)))
  ∧ ∀ s : State, ∃ t, exec .pinReset s = .next t ∧ t.igu = Igu.reset ∧ t.tku = Tku.reset ∧ t.swc = Swc.reset
    ∧ t.smu = Smu.reset ∧ t.blu = Blu.reset ∧ t.cvm = Cvm.reset ∧ t.opu = Opu.reset ∧ t.grant = none
    ∧ t.lku = { Lku.reset with conds.profileBad := t.lku.conds.profileBad }
    ∧ t.lku.executing = false ∧ t.lku.tx = .undriven ∧ t.lku.rx = .hunt
    ∧ t.pins = { Pins.reset with
        fipFv := s.pins.fipFv, sopRdy := s.pins.sopRdy, lkSelected := s.pins.lkSelected }
    ∧ t.psc.stage = none ∧ t.psc.burn = none
    ∧ (s.psc.burn = none → t.psc.profiles = s.psc.profiles ∧ t.psc.protection = s.psc.protection)
    ∧ (∀ i f, s.psc.burn = some (.profile i f) → t.psc.protection = s.psc.protection
        ∧ t.psc.profiles[i].crc ≠ profileCrc t.psc.profiles[i].fields
        ∧ ∀ j : Fin 4, j ≠ i → t.psc.profiles[j] = s.psc.profiles[j])
    ∧ (∀ f, s.psc.burn = some (.protect f) ∨ s.psc.burn = some (.lock f) →
        t.psc.profiles = s.psc.profiles
        ∧ t.psc.protection.crc ≠ protectionCrc t.psc.protection.fields)
    ∧ (∀ i : Fin 4, (t.psc.shadow.slots[i].valid = true
          ↔ t.psc.profiles[i].crc = profileCrc t.psc.profiles[i].fields)
        ∧ (t.psc.shadow.slots[i].valid = true →
          t.psc.shadow.slots[i].fields = t.psc.profiles[i].fields))
    ∧ (t.psc.protection.crc = protectionCrc t.psc.protection.fields →
        t.psc.shadow.mask = t.psc.protection.fields.mask
        ∧ t.psc.shadow.locked = t.psc.protection.fields.locked)
    ∧ (t.psc.protection.crc ≠ protectionCrc t.psc.protection.fields →
        t.psc.shadow.mask = 0xF#4 ∧ t.psc.shadow.locked = false)
    ∧ (t.lku.conds.profileBad = true
        ↔ (∃ i : Fin 4, t.psc.profiles[i].crc ≠ profileCrc t.psc.profiles[i].fields)
          ∨ t.psc.protection.crc ≠ protectionCrc t.psc.protection.fields)
    ∧ ((∀ g, s.grant = some g → g.access.write = none) → t.mem = s.mem ∧ t.ecc = s.ecc)
    ∧ ∀ g w, s.grant = some g → g.access.write = some w →
        (∀ a, a ≠ w.addr → markOf t.ecc a = markOf s.ecc a)
        ∧ (s.MemoryCanonical → ∀ a, a < w.addr ∨ w.addr + 8 ≤ a → readByte t.mem a = readByte s.mem a)
end

