-- ==== Sys2Proof/Laws/Frames.lean ====
section
/-! SUPPORT. What the shared operations leave unchanged: for each, the blocks it may change (Safety.lean's SameOutside), and how frames compose. -/
namespace Sys2Proof.Machine

/-! ### Composing frames -/

theorem SameOutside.rfl' {l : List Block} {s : State} : SameOutside l s s := by
  intro b _; cases b <;> exact rfl

theorem Block.Same.trans {s t u : State} {b : Block} (h : Block.Same s t b) (k : Block.Same t u b) :
    Block.Same s u b := by
  cases b <;> exact Eq.trans k h

theorem SameOutside.mono {l m : List Block} {s t : State} (h : SameOutside l s t)
    (sub : ∀ b ∈ l, b ∈ m) : SameOutside m s t :=
  fun b hb => h b (fun hl => hb (sub b hl))

/-- Two operations, one after the other, may change what either may change. -/
theorem SameOutside.comp {l m n : List Block} {s t u : State} (h : SameOutside l s t)
    (k : SameOutside m t u) (sub : ∀ b ∈ l ++ m, b ∈ n) : SameOutside n s u :=
  fun b hb => (h b (fun hl => hb (sub b (List.mem_append_left _ hl)))).trans
    (k b (fun hm => hb (sub b (List.mem_append_right _ hm))))

theorem SameOutside.ite {l : List Block} {s t u : State} {p : Prop} [Decidable p]
    (h : SameOutside l s t) (k : SameOutside l s u) : SameOutside l s (if p then t else u) := by
  split
  · exact h
  · exact k

/-- A block outside the list is equal. -/
theorem SameOutside.mem {l : List Block} {s t : State} (h : SameOutside l s t) (hb : Block.mem ∉ l) :
    t.mem = s.mem := h .mem hb
theorem SameOutside.swc {l : List Block} {s t : State} (h : SameOutside l s t) (hb : Block.swc ∉ l) :
    t.swc = s.swc := h .swc hb
theorem SameOutside.igu {l : List Block} {s t : State} (h : SameOutside l s t) (hb : Block.igu ∉ l) :
    t.igu = s.igu := h .igu hb
theorem SameOutside.tku {l : List Block} {s t : State} (h : SameOutside l s t) (hb : Block.tku ∉ l) :
    t.tku = s.tku := h .tku hb
theorem SameOutside.smu {l : List Block} {s t : State} (h : SameOutside l s t) (hb : Block.smu ∉ l) :
    t.smu = s.smu := h .smu hb
theorem SameOutside.blu {l : List Block} {s t : State} (h : SameOutside l s t) (hb : Block.blu ∉ l) :
    t.blu = s.blu := h .blu hb
theorem SameOutside.cvm {l : List Block} {s t : State} (h : SameOutside l s t) (hb : Block.cvm ∉ l) :
    t.cvm = s.cvm := h .cvm hb
theorem SameOutside.opu {l : List Block} {s t : State} (h : SameOutside l s t) (hb : Block.opu ∉ l) :
    t.opu = s.opu := h .opu hb
theorem SameOutside.lku {l : List Block} {s t : State} (h : SameOutside l s t) (hb : Block.lku ∉ l) :
    t.lku = s.lku := h .lku hb
theorem SameOutside.psc {l : List Block} {s t : State} (h : SameOutside l s t) (hb : Block.psc ∉ l) :
    t.psc = s.psc := h .psc hb
theorem SameOutside.pins {l : List Block} {s t : State} (h : SameOutside l s t) (hb : Block.pins ∉ l) :
    t.pins = s.pins := h .pins hb
theorem SameOutside.ecc {l : List Block} {s t : State} (h : SameOutside l s t) (hb : Block.ecc ∉ l) :
    t.ecc = s.ecc := h .ecc hb
theorem SameOutside.grant {l : List Block} {s t : State} (h : SameOutside l s t) (hb : Block.grant ∉ l) :
    t.grant = s.grant := h .grant hb

/-- A fold of an operation keeps what the operation keeps. -/
theorem SameOutside.foldl {α : Type} {l : List Block} (f : State → α → State)
    (hf : ∀ s a, SameOutside l s (f s a)) (xs : List α) (s : State) :
    SameOutside l s (xs.foldl f s) := by
  induction xs generalizing s with
  | nil => exact SameOutside.rfl'
  | cons a as ih => exact (hf s a).comp (ih _) (by intro b hb; simpa using hb)

/-! ### Records -/

theorem frame_pins (s : State) (x : Pins) : SameOutside [.pins] s { s with pins := x } := by
  intro b hb; cases b <;> first | exact rfl | exact absurd (by decide) hb
theorem frame_igu (s : State) (x : Igu) : SameOutside [.igu] s { s with igu := x } := by
  intro b hb; cases b <;> first | exact rfl | exact absurd (by decide) hb
theorem frame_tku (s : State) (x : Tku) : SameOutside [.tku] s { s with tku := x } := by
  intro b hb; cases b <;> first | exact rfl | exact absurd (by decide) hb
theorem frame_swc (s : State) (x : Swc) : SameOutside [.swc] s { s with swc := x } := by
  intro b hb; cases b <;> first | exact rfl | exact absurd (by decide) hb
theorem frame_smu (s : State) (x : Smu) : SameOutside [.smu] s { s with smu := x } := by
  intro b hb; cases b <;> first | exact rfl | exact absurd (by decide) hb
theorem frame_blu (s : State) (x : Blu) : SameOutside [.blu] s { s with blu := x } := by
  intro b hb; cases b <;> first | exact rfl | exact absurd (by decide) hb
theorem frame_cvm (s : State) (x : Cvm) : SameOutside [.cvm] s { s with cvm := x } := by
  intro b hb; cases b <;> first | exact rfl | exact absurd (by decide) hb
theorem frame_opu (s : State) (x : Opu) : SameOutside [.opu] s { s with opu := x } := by
  intro b hb; cases b <;> first | exact rfl | exact absurd (by decide) hb
theorem frame_lku (s : State) (x : Lku) : SameOutside [.lku] s { s with lku := x } := by
  intro b hb; cases b <;> first | exact rfl | exact absurd (by decide) hb
theorem frame_psc (s : State) (x : Psc) : SameOutside [.psc] s { s with psc := x } := by
  intro b hb; cases b <;> first | exact rfl | exact absurd (by decide) hb
theorem frame_grant (s : State) (x : Option Grant) : SameOutside [.grant] s { s with grant := x } := by
  intro b hb; cases b <;> first | exact rfl | exact absurd (by decide) hb
theorem frame_ecc (s : State) (x : List (Nat × WordMark)) : SameOutside [.ecc] s { s with ecc := x } := by
  intro b hb; cases b <;> first | exact rfl | exact absurd (by decide) hb

/-! ### Flags, notices, replies -/

theorem notify_frame (s : State) (n : NoticeBody) : SameOutside [.lku] s (s.notify n) := by
  unfold State.notify; split <;> exact frame_lku _ _

theorem answer_frame (s : State) (r : ReplyBody) : SameOutside [.lku] s (s.answer r) := by
  unfold State.answer; split
  · exact SameOutside.rfl'
  · exact frame_lku _ _

theorem notifySession_frame (s : State) (a b : SessionState) :
    SameOutside [.lku] s (s.notifySession a b) := notify_frame _ _

theorem enterState_frame (s : State) (a : SessionState) :
    SameOutside [.swc, .lku] s (s.enterState a) :=
  (frame_swc s _).comp (notifySession_frame _ _ _) (by decide)

theorem notifyCanvas_frame (s : State) (w : CanvasWait) (e : Bool) :
    SameOutside [.lku] s (s.notifyCanvas w e) := notify_frame _ _

theorem notifyStrip_frame (s : State) (id : Nat) (r : Strip) (st : StripStatus) (n : Nat) :
    SameOutside [.lku] s (s.notifyStrip id r st n) := notify_frame _ _

theorem noteFrameDropped_frame (s : State) : SameOutside [.lku] s s.noteFrameDropped := frame_lku _ _
theorem noteEccError_frame (s : State) : SameOutside [.lku] s s.noteEccError := frame_lku _ _
theorem noteLinkError_frame (s : State) : SameOutside [.lku] s s.noteLinkError := frame_lku _ _
theorem setOutputHalted_frame (s : State) (b : Bool) : SameOutside [.lku] s (s.setOutputHalted b) :=
  frame_lku _ _
theorem setProfileBad_frame (s : State) (b : Bool) : SameOutside [.lku] s (s.setProfileBad b) :=
  frame_lku _ _
theorem setBurnFailed_frame (s : State) (b : Bool) : SameOutside [.lku] s (s.setBurnFailed b) :=
  frame_lku _ _

/-! ### Slots and the end of a sweep -/

theorem freeSlot_frame (s : State) (i : Fin 8) : SameOutside [.igu] s (s.freeSlot i) := frame_igu _ _
theorem setSlotState_frame (s : State) (i : Fin 8) (st : SlotState) :
    SameOutside [.igu] s (s.setSlotState i st) := frame_igu _ _
theorem putSlot_frame (s : State) (i : Fin 8) (st : SlotState) (r : FrameRecord) :
    SameOutside [.igu] s (s.putSlot i st r) := frame_igu _ _

theorem freeSlots_frame (s : State) (l : List (Fin 8)) : SameOutside [.igu] s (s.freeSlots l) :=
  SameOutside.foldl _ freeSlot_frame l s

theorem moveToLast_frame (s : State) (i : Fin 8) : SameOutside [.igu] s (s.moveToLast i) :=
  (freeSlots_frame s _).comp (setSlotState_frame _ _ _) (by decide)

theorem moveToKey_frame (s : State) (i : Fin 8) : SameOutside [.igu] s (s.moveToKey i) :=
  (freeSlots_frame s _).comp (setSlotState_frame _ _ _) (by decide)

theorem withdrawLines_frame (s : State) (i : Fin 8) :
    SameOutside [.igu, .grant] s (s.withdrawLines i) := by
  intro b hb; cases b <;> first | exact rfl | exact absurd (by decide) hb

theorem endUnaccepted_frame (s : State) (i : Fin 8) :
    SameOutside [.igu, .tku, .grant] s (s.endUnaccepted i) :=
  ((withdrawLines_frame s i).comp (freeSlot_frame _ i) (n := [.igu, .grant]) (by decide)).comp
    (frame_tku _ _) (by decide)

theorem countDropped_frame (s : State) : SameOutside [.igu, .lku] s s.countDropped :=
  (frame_igu s _).comp (noteFrameDropped_frame _) (by decide)

theorem countGeometry_frame (s : State) : SameOutside [.igu] s s.countGeometry := by
  unfold State.countGeometry; split
  · exact frame_igu _ _
  · exact SameOutside.rfl'

theorem discardFrames_frame (s : State) : SameOutside [.igu, .grant] s s.discardFrames :=
  (SameOutside.foldl _ (fun t i => (withdrawLines_frame t i).comp (freeSlot_frame _ i)
    (n := [.igu, .grant]) (by decide)) _ s).comp (freeSlots_frame _ _) (by decide)

theorem freeReference_frame (s : State) (i : Fin 8) : SameOutside [.igu] s (s.freeReference i) :=
  SameOutside.ite SameOutside.rfl' (freeSlot_frame s i)

theorem dropProvisional_frame (s : State) : SameOutside [.igu, .swc] s s.dropProvisional := by
  unfold State.dropProvisional; split
  · exact (freeReference_frame s _).comp (frame_swc _ _) (by decide)
  · exact SameOutside.rfl'

theorem endSweep_frame (s : State) (c : EndCause) : SameOutside settleBlocks s (s.endSweep c) := by
  unfold State.endSweep; split
  · exact ((((frame_swc s _).comp (enterState_frame _ _) (n := [.swc, .lku]) (by decide)).comp
      (discardFrames_frame _) (n := settleBlocks) (by decide)).comp
      (dropProvisional_frame _) (by decide))
  · exact SameOutside.rfl'

theorem dropLast_frame (s : State) : SameOutside [.igu, .swc] s s.dropLast :=
  (freeSlots_frame s _).comp (frame_swc _ _) (by decide)

theorem checkDone_frame (s : State) : SameOutside [.igu, .swc, .lku] s s.checkDone := by
  unfold State.checkDone; split
  · refine SameOutside.comp (SameOutside.ite (dropLast_frame s) SameOutside.rfl') (enterState_frame _ _)
      (by decide)
  · exact SameOutside.rfl'

theorem arbitrate_frame (s : State) : SameOutside [.grant] s s.arbitrate := frame_grant _ _

theorem settle_frame (s : State) : SameOutside settleBlocks s s.settle :=
  (checkDone_frame s).comp (arbitrate_frame _) (by decide)

/-- An operation followed by `settle`. -/
theorem SameOutside.settled {l m : List Block} {s t : State} (h : SameOutside l s t)
    (sub : ∀ b ∈ l ++ settleBlocks, b ∈ m) : SameOutside m s t.settle := h.comp (settle_frame t) sub

/-! ### Keys and strips -/

theorem updateKey_frame (s : State) (k : Nat) (f : KeyRecord → KeyRecord) :
    SameOutside [.swc] s (s.updateKey k f) := frame_swc _ _

theorem releaseKey_frame (s : State) (k : Nat) : SameOutside [.igu, .swc] s (s.releaseKey k) := by
  unfold State.releaseKey; dsimp only; split
  · exact (updateKey_frame s _ _).comp (freeSlot_frame _ _) (by decide)
  · exact (updateKey_frame s _ _).mono (by decide)

theorem updateStrip_frame (s : State) (j : Nat) (f : Strip → Strip) :
    SameOutside [.cvm] s (s.updateStrip j f) := frame_cvm _ _
theorem removeStrip_frame (s : State) (j : Nat) : SameOutside [.cvm] s (s.removeStrip j) :=
  frame_cvm _ _

theorem countSent_frame (s : State) : SameOutside [.cvm] s s.countSent := frame_cvm _ _
theorem countSkipped_frame (s : State) : SameOutside [.cvm] s s.countSkipped := frame_cvm _ _
theorem countDiscarded_frame (s : State) : SameOutside [.cvm] s s.countDiscarded := frame_cvm _ _
theorem setOpuState_frame (s : State) (st : OpuState) : SameOutside [.opu] s (s.setOpuState st) :=
  frame_opu _ _
theorem clearTransfer_frame (s : State) : SameOutside [.opu] s s.clearTransfer := frame_opu _ _

/-! ### Ingest -/

theorem abortFilling_frame (s : State) : SameOutside [.igu, .tku, .grant, .lku] s s.abortFilling := by
  unfold State.abortFilling; split
  · exact (endUnaccepted_frame s _).comp (countDropped_frame _) (by decide)
  · exact SameOutside.rfl'

theorem startFrame_frame (s : State) (i : Fin 8) (c : BitVec 8) (e : Nat) :
    SameOutside [.igu, .tku] s (s.startFrame i c e) := by
  intro b hb; cases b <;> first | exact rfl | exact absurd (by decide) hb

theorem frameStart_frame (s : State) (l : List Beat) :
    SameOutside [.igu, .tku, .lku] s (s.frameStart l) := by
  unfold State.frameStart; split
  · exact SameOutside.rfl'
  · split
    · split
      · exact SameOutside.rfl'
      · split
        · exact (startFrame_frame s _ _ _).mono (by decide)
        · exact (countDropped_frame s).mono (by decide)
    · exact (countGeometry_frame s).mono (by decide)

theorem takeLine_frame (s : State) (i : Fin 8) (tag : Beat) (l : List Beat) :
    SameOutside [.igu] s (s.takeLine i tag l) := frame_igu _ _

theorem startPrepare_frame (s : State) (i : Fin 8) : SameOutside [.igu] s (s.startPrepare i) :=
  frame_igu _ _

theorem acceptFrame_frame (s : State) (i : Fin 8) (r : FrameRecord) :
    SameOutside [.igu] s (s.acceptFrame i r) :=
  SameOutside.ite ((frame_igu s _).comp (startPrepare_frame _ _) (by decide)) (frame_igu s _)

/-! ### SWC's decision -/

/-- The blocks that SWC's decision on a frame may change. -/
def decisionBlocks : List Block := [.tku, .smu, .cvm, .igu, .swc, .lku, .grant]

theorem setStage_frame (s : State) (st : TrackStage) : SameOutside [.tku] s (s.setStage st) :=
  frame_tku _ _
theorem askSelection_frame (s : State) (k : SetKind) (i : Fin 8) :
    SameOutside [.tku] s (s.askSelection k i) := frame_tku _ _
theorem rebase_frame (s : State) (r : FrameResult) : SameOutside [.tku] s (s.rebase r) := frame_tku _ _

theorem closeFrame_frame (s : State) (op : TrackOp) : SameOutside [.igu, .swc, .tku] s (s.closeFrame op) := by
  refine SameOutside.comp (SameOutside.ite (l := [.igu, .swc]) ?_ ?_) (frame_tku _ _) (by decide)
  · exact (moveToKey_frame s _).mono (by decide)
  · exact (moveToLast_frame s _).comp (frame_swc _ _) (by decide)

theorem finishFrame_frame (s : State) : SameOutside [.igu, .swc, .tku] s s.finishFrame := by
  unfold State.finishFrame; split
  · exact SameOutside.rfl'
  · exact SameOutside.ite (closeFrame_frame s _) ((frame_tku s _).mono (by decide))

theorem addKey_frame (s : State) (r : KeyRecord) : SameOutside [.swc] s (s.addKey r) := frame_swc _ _

theorem notifyKey_frame (s : State) (r : KeyRecord) : SameOutside [.swc, .lku] s (s.notifyKey r) :=
  (notify_frame s _).comp (frame_swc _ _) (by decide)

theorem startSeam_frame (s : State) : SameOutside [.smu] s s.startSeam := by
  unfold State.startSeam; split
  · exact frame_smu _ _
  · exact SameOutside.rfl'

theorem queueSeam_frame (s : State) (j : SeamJob) : SameOutside [.smu] s (s.queueSeam j) :=
  (frame_smu s _).comp (startSeam_frame _) (by decide)

theorem applyPending_frame (s : State) : SameOutside [.swc] s s.applyPending := by
  unfold State.applyPending; split
  · exact SameOutside.rfl'
  · exact frame_swc _ _

theorem takeKeyZero_frame (s : State) (i : Fin 8) (m : Nat) (l : LockState) :
    SameOutside [.tku, .swc, .lku] s (s.takeKeyZero i m l) := by
  refine SameOutside.comp (l := [.tku, .swc]) ?_
    ((applyPending_frame _).comp (notifyKey_frame _ _) (n := [.swc, .lku]) (by decide)) (by decide)
  have h := (addKey_frame s (s.keyZeroRecord i m l)).comp (askSelection_frame _ .leading i)
    (n := [.tku, .swc]) (by decide)
  exact SameOutside.ite (h.comp (askSelection_frame _ _ _) (by decide)) h

theorem recordKey_frame (s : State) (r : KeyRecord) :
    SameOutside [.smu, .swc, .lku] s (s.recordKey r) :=
  ((addKey_frame s r).comp (queueSeam_frame _ _) (n := [.smu, .swc]) (by decide)).comp
    (notifyKey_frame _ _) (by decide)

/-- The blocks that pace, stall and the closure window may change. -/
def windowBlocks : List Block := [.tku, .cvm, .igu, .swc, .lku, .grant]

theorem windowStep_frame (s : State) (op : TrackOp) (r : FrameResult) :
    SameOutside windowBlocks s (s.windowStep op r) := by
  unfold State.windowStep; dsimp only; split
  · split
    · exact ((frame_cvm s _).comp (enterState_frame _ _) (n := windowBlocks) (by decide)).comp
        (finishFrame_frame _) (by decide)
    · split
      · exact (((endSweep_frame s _).comp (frame_cvm _ _) (n := windowBlocks) (by decide)).comp
          (notify_frame _ _) (n := windowBlocks) (by decide)).comp (finishFrame_frame _) (by decide)
      · exact (finishFrame_frame s).mono (by decide)
  · exact (finishFrame_frame s).mono (by decide)

theorem stallStep_frame (s : State) (op : TrackOp) (r : FrameResult) :
    SameOutside windowBlocks s (s.stallStep op r) := by
  unfold State.stallStep; dsimp only; split
  · exact (frame_swc s _).comp (windowStep_frame _ _ _) (by decide)
  · split
    · exact (frame_swc s _).comp (setStage_frame _ _) (by decide)
    · exact (frame_swc s _).comp (windowStep_frame _ _ _) (by decide)

theorem paceStep_frame (s : State) (op : TrackOp) (r : FrameResult) :
    SameOutside windowBlocks s (s.paceStep op r) := by
  unfold State.paceStep; dsimp only; split
  · exact (frame_swc s _).comp (stallStep_frame _ _ _) (by decide)
  · split
    · exact (setStage_frame s _).mono (by decide)
    · exact (frame_swc s _).comp (stallStep_frame _ _ _) (by decide)

theorem takeTracked_frame (s : State) (op : TrackOp) (r : FrameResult) (k : KeyKind) :
    SameOutside decisionBlocks s (s.takeTracked op r k) := by
  unfold State.takeTracked; dsimp only; split
  · exact (((recordKey_frame s _).comp (frame_swc _ _) (n := decisionBlocks) (by decide)).comp
      (endSweep_frame _ _) (n := decisionBlocks) (by decide)).comp (finishFrame_frame _) (by decide)
  · split
    · have h := (((recordKey_frame s (s.keyRecordOf op.slot op.position r k)).comp
        (askSelection_frame _ .leading op.slot) (n := decisionBlocks) (by decide)).comp
        (rebase_frame _ r) (n := decisionBlocks) (by decide)).comp (applyPending_frame _)
        (n := decisionBlocks) (by decide)
      split
      · exact h.comp (setStage_frame _ _) (by decide)
      · exact h.comp (paceStep_frame _ _ _) (by decide)
    · exact (recordKey_frame s _).comp (finishFrame_frame _) (by decide)

theorem takeOrWait_frame (s : State) (op : TrackOp) (r : FrameResult) (k : KeyKind) :
    SameOutside decisionBlocks s (s.takeOrWait op r k) :=
  SameOutside.ite (takeTracked_frame _ _ _ _) ((setStage_frame _ _).mono (by decide))

theorem judgeKey_frame (s : State) (op : TrackOp) (r : FrameResult) :
    SameOutside decisionBlocks s (s.judgeKey op r) := by
  have h (c : EndCause) : SameOutside decisionBlocks s (s.endSweep c).finishFrame :=
    (endSweep_frame s c).comp (finishFrame_frame _) (by decide)
  unfold State.judgeKey; dsimp only
  split
  · exact h _
  · split
    · exact h _
    · split
      · exact (paceStep_frame _ _ _).mono (by decide)
      · split
        · exact h _
        · exact takeOrWait_frame _ _ _ _

theorem setClosureRun_frame (s : State) (n : Nat) : SameOutside [.cvm] s (s.setClosureRun n) :=
  frame_cvm _ _

theorem keyDecision_frame (s : State) (op : TrackOp) (r : FrameResult) :
    SameOutside decisionBlocks s (s.keyDecision op r) := by
  have h (n : Nat) : SameOutside decisionBlocks s ((s.setClosureRun n).judgeKey op r) :=
    (setClosureRun_frame s n).comp (judgeKey_frame _ _ _) (by decide)
  unfold State.keyDecision; split
  · split
    · split
      · split
        · exact (setStage_frame _ _).mono (by decide)
        · exact h _
      · exact h _
    · exact h _
  · exact judgeKey_frame _ _ _

theorem countFrame_frame (s : State) (r : FrameResult) : SameOutside [.swc] s (s.countFrame r) :=
  frame_swc _ _

theorem takeFirstFrame_frame (s : State) (op : TrackOp) (r : FrameResult) :
    SameOutside decisionBlocks s (s.takeFirstFrame op r) :=
  (((takeKeyZero_frame s _ _ _).comp (rebase_frame _ r) (n := decisionBlocks) (by decide)).comp
    (frame_swc _ _) (n := decisionBlocks) (by decide)).comp (finishFrame_frame _) (by decide)

theorem takeProvisional_frame (s : State) (op : TrackOp) (r : FrameResult) :
    SameOutside [.tku, .swc] s (s.takeProvisional op r) :=
  ((askSelection_frame s .calibration op.slot).comp (rebase_frame _ r) (n := [.tku]) (by decide)).comp
    (frame_swc _ _) (by decide)

theorem judgeCalibration_frame (s : State) (r : FrameResult) :
    SameOutside [.igu, .tku, .swc] s (s.judgeCalibration r) := by
  unfold State.judgeCalibration; dsimp only
  split
  · exact (frame_swc s _).comp (setStage_frame _ _) (by decide)
  · split
    · exact (frame_swc s _).comp (setStage_frame _ _) (by decide)
    · split
      · exact (frame_swc s _).comp (setStage_frame _ _) (by decide)
      · exact (frame_swc s _).comp (finishFrame_frame _) (by decide)

theorem calibrate_frame (s : State) (op : TrackOp) (r : FrameResult) :
    SameOutside [.igu, .tku, .swc] s (s.calibrate op r) := by
  unfold State.calibrate; dsimp only; split
  · exact ((frame_swc s _).comp (takeProvisional_frame _ _ _) (n := [.igu, .tku, .swc])
      (by decide)).comp (finishFrame_frame _) (by decide)
  · exact (frame_swc s _).comp (judgeCalibration_frame _ _) (by decide)

theorem decideFrame_frame (s : State) (r : FrameResult) :
    SameOutside decisionBlocks s (s.decideFrame r) := by
  unfold State.decideFrame; split
  · exact SameOutside.rfl'
  · rename_i op _
    refine (frame_tku s { s.tku with op := some { op with position := s.positionOf r } }).comp
      (m := decisionBlocks) ?_ (by decide)
    dsimp only
    split
    · exact (calibrate_frame _ _ _).mono (by decide)
    · exact (calibrate_frame _ _ _).mono (by decide)
    · split
      · exact (countFrame_frame _ _).comp (takeFirstFrame_frame _ _ _) (by decide)
      · exact (countFrame_frame _ _).comp (keyDecision_frame _ _ _) (by decide)
    · exact (countFrame_frame _ _).comp (keyDecision_frame _ _ _) (by decide)
    all_goals exact (finishFrame_frame _).mono (by decide)

/-! ### Tracking -/

theorem notifyTrack_frame (s : State) (op : TrackOp) (b : LockState) :
    SameOutside [.lku] s (s.notifyTrack op b) := notify_frame _ _
theorem setLock_frame (s : State) (l : Lock) : SameOutside [.tku] s (s.setLock l) := frame_tku _ _

theorem frameResult_frame (s : State) (op : TrackOp) :
    SameOutside decisionBlocks s (s.frameResult op) :=
  (frame_tku s _).comp (decideFrame_frame _ _) (by decide)

theorem motionStep_frame (s : State) (op : TrackOp) : SameOutside [.tku] s (s.motionStep op) :=
  frame_tku _ _

theorem lockStep_frame (s : State) (op : TrackOp) : SameOutside decisionBlocks s (s.lockStep op) := by
  have h1 (l : Lock) (t : State) : SameOutside decisionBlocks t ((t.setLock l).frameResult op) :=
    (setLock_frame t l).comp (frameResult_frame _ _) (by decide)
  have h2 (l : Lock) (t : State) (b : LockState) :
      SameOutside decisionBlocks t (((t.setLock l).notifyTrack op b).frameResult op) :=
    ((setLock_frame t l).comp (notifyTrack_frame _ _ _) (n := decisionBlocks) (by decide)).comp
      (frameResult_frame _ _) (by decide)
  have h3 (l : Lock) (t : State) (st : TrackStage) :
      SameOutside decisionBlocks t ((t.setLock l).setStage st) :=
    (setLock_frame t l).comp (setStage_frame _ _) (by decide)
  unfold State.lockStep
  refine (frame_tku s { s.tku with op := some op }).comp (m := decisionBlocks) ?_ (by decide)
  dsimp only
  split
  · split
    · split
      · exact h3 _ _ _
      · exact h1 _ _
    · split
      · exact h3 _ _ _
      · exact h1 _ _
    · exact frameResult_frame _ _
    · exact h2 _ _ _
  · split
    · exact h1 _ _
    · exact h1 _ _
    · exact h2 _ _ _
    · split
      · exact h3 _ _ _
      · exact h1 _ _

theorem afterMisses_frame (s : State) (op : TrackOp) :
    SameOutside decisionBlocks s (s.afterMisses op) :=
  (motionStep_frame s op).comp (lockStep_frame _ _) (by decide)

theorem formConsensus_frame (s : State) (op : TrackOp) :
    SameOutside [.tku] s (s.formConsensus op).1 := by
  unfold State.formConsensus; dsimp only; split
  · split <;> exact frame_tku _ _
  · exact SameOutside.rfl'

theorem beginTracking_frame (s : State) (i : Fin 8) : SameOutside [.igu, .tku] s (s.beginTracking i) :=
  (setSlotState_frame s i _).comp (frame_tku _ _) (by decide)

theorem losePatch_frame (s : State) (c : Bool) (id : Nat) : SameOutside [.tku] s (s.losePatch c id) := by
  unfold State.losePatch; split <;> exact frame_tku _ _

theorem replaceSet_frame (s : State) (k : SetKind) (l : List Patch) :
    SameOutside [.tku] s (s.replaceSet k l) := by
  cases k <;> exact frame_tku _ _

/-! ### The steps that the table lists on their own -/

theorem beginSweep_frame (s : State) (x : Int) : SameOutside [.swc, .lku] s (s.beginSweep x) :=
  (frame_swc s _).comp (enterState_frame _ _) (by decide)

theorem decideDirection_frame (s : State) (r : FrameResult) (p : Fin 8) :
    SameOutside [.swc, .tku, .lku] s (s.decideDirection r p) := by
  have h (x : State) (n : Nat) (a : Int) : SameOutside [.swc, .tku, .lku] x
      ((x.takeKeyZero p n r.lock).beginSweep a) :=
    (takeKeyZero_frame x _ _ _).comp (beginSweep_frame _ _) (by decide)
  exact (frame_swc s { s.swc with decided := if 0 < r.au then some .right else some .left }).comp
    (h _ _ _) (by decide)

theorem recalibrate_frame (s : State) (op : TrackOp) (r : FrameResult) :
    SameOutside [.igu, .swc, .tku, .lku] s (s.recalibrate op r) := by
  have h (x : State) : SameOutside [.igu, .swc, .tku, .lku] x
      ((x.takeProvisional op r).enterState .recalibrating) :=
    (takeProvisional_frame x _ _).comp (enterState_frame _ _) (by decide)
  unfold State.recalibrate; split
  · exact (freeSlot_frame s _).comp (h _) (by decide)
  · exact h s

theorem changePace_frame (s : State) (r : FrameResult) : SameOutside [.swc, .lku] s (s.changePace r) :=
  (notify_frame s _).comp (frame_swc _ _) (by decide)

theorem closeTable_frame (s : State) (x : Int) : SameOutside [.cvm] s (s.closeTable x) := frame_cvm _ _

theorem acceptClosure_frame (s : State) (r : FrameResult) (x y : Int) :
    SameOutside [.cvm, .swc, .lku] s (s.acceptClosure r x y) :=
  (((frame_cvm s _).comp (notify_frame _ _) (n := [.cvm, .lku]) (by decide)).comp
    (closeTable_frame _ _) (n := [.cvm, .lku]) (by decide)).comp (frame_swc _ _) (by decide)

/-! ### Keys, seams, commits, the canvas -/

theorem endDue_frame (s : State) (d : TrackStage) (c : EndCause) :
    SameOutside (.tku :: settleBlocks) s (s.endDue d c) := by
  unfold State.endDue; split
  · exact SameOutside.rfl'
  · split
    · exact ((endSweep_frame s c).comp (finishFrame_frame _) (n := .tku :: settleBlocks)
        (by decide)).settled (by decide)
    · exact SameOutside.rfl'

theorem takeTail_frame (s : State) (i : Fin 8) (r : FrameResult) :
    SameOutside [.smu, .igu, .swc, .lku] s (s.takeTail i r) :=
  ((recordKey_frame s _).comp (moveToKey_frame _ i) (n := [.smu, .igu, .swc, .lku]) (by decide)).comp
    (frame_swc _ _) (by decide)

theorem decideTail_frame (s : State) : SameOutside [.smu, .igu, .swc, .lku] s s.decideTail := by
  unfold State.decideTail; split
  · split
    · split
      · exact takeTail_frame _ _ _
      · exact (frame_swc _ _).mono (by decide)
    · exact (dropLast_frame _).mono (by decide)
  · exact (dropLast_frame _).mono (by decide)

theorem createStrip_frame (s : State) (j : Nat) : SameOutside [.cvm] s (s.createStrip j) := frame_cvm _ _
theorem openPart_frame (s : State) (c : Bool) : SameOutside [.blu] s (s.openPart c) := frame_blu _ _

theorem forgetTransfer_frame (s : State) (j : Nat) : SameOutside [.opu] s (s.forgetTransfer j) := by
  unfold State.forgetTransfer; split
  · exact frame_opu _ _
  · exact SameOutside.rfl'

theorem discardStrip_frame (s : State) (r : Strip) :
    SameOutside [.cvm, .lku, .opu] s (s.discardStrip r) :=
  (((removeStrip_frame s _).comp (countDiscarded_frame _) (n := [.cvm]) (by decide)).comp
    (notifyStrip_frame _ _ _ _ _) (n := [.cvm, .lku]) (by decide)).comp (forgetTransfer_frame _ _)
    (by decide)

theorem beginWait_frame (s : State) (j : Nat) (r : Strip) :
    SameOutside [.blu, .cvm, .lku] s (s.beginWait j r) := by
  refine SameOutside.comp (l := [.blu, .cvm]) ?_ (notifyCanvas_frame _ _ _) (by decide)
  intro b hb; cases b <;> first | exact rfl | exact absurd (by decide) hb

theorem endWait_frame (s : State) (j : Nat) : SameOutside [.blu, .cvm, .lku] s (s.endWait j) := by
  unfold State.endWait; split
  · exact SameOutside.rfl'
  · split
    · exact (((createStrip_frame s _).comp (frame_cvm _ _) (n := [.cvm]) (by decide)).comp
        (openPart_frame _ _) (n := [.blu, .cvm]) (by decide)).comp (notifyCanvas_frame _ _ _) (by decide)
    · exact SameOutside.rfl'

theorem openStrip_frame (s : State) (j : Nat) :
    SameOutside [.blu, .cvm, .opu, .lku] s (s.openStrip j) := by
  unfold State.openStrip; split
  · split
    · exact (openPart_frame s _).mono (by decide)
    · exact SameOutside.rfl'
  · split
    · exact (createStrip_frame s _).comp (openPart_frame _ _) (by decide)
    · split
      · exact ((discardStrip_frame s _).comp (createStrip_frame _ _) (n := [.cvm, .lku, .opu])
          (by decide)).comp (openPart_frame _ _) (by decide)
      · exact (beginWait_frame s _ _).mono (by decide)

theorem finalise_frame (s : State) (p : Strip → Bool) : SameOutside [.cvm] s (s.finalise p) :=
  frame_cvm _ _
theorem finaliseBelow_frame (s : State) : SameOutside [.cvm] s s.finaliseBelow := finalise_frame _ _

theorem markLastStrip_frame (s : State) : SameOutside [.cvm] s s.markLastStrip := by
  unfold State.markLastStrip; split
  · exact SameOutside.rfl'
  · exact updateStrip_frame _ _ _

theorem finaliseAll_frame (s : State) : SameOutside [.cvm] s s.finaliseAll :=
  ((((markLastStrip_frame s).comp (finaliseBelow_frame _) (n := [.cvm]) (by decide)).comp
    (finalise_frame _ _) (n := [.cvm]) (by decide)).comp (finalise_frame _ _) (n := [.cvm])
    (by decide)).comp (frame_cvm _ _) (by decide)

theorem beginCommit_frame (s : State) : SameOutside [.blu] s s.beginCommit := by
  unfold State.beginCommit; split <;> exact frame_blu _ _

theorem enterCommit_frame (s : State) (c : Commit) : SameOutside [.blu] s (s.enterCommit c) :=
  SameOutside.ite ((frame_blu s _).comp (beginCommit_frame _) (by decide)) (frame_blu s _)

theorem commitKeys_frame (s : State) (c : Commit) : SameOutside [.igu, .swc] s (s.commitKeys c) := by
  have h := updateKey_frame s c.key (fun r => { r with state := .committed })
  have h2 : SameOutside [.igu, .swc] s (match c.kind with
      | .ordinary => s.updateKey c.key (fun r => { r with state := .committed })
      | .final | .closure =>
        (s.updateKey c.key (fun r => { r with state := .committed })).releaseKey c.key) := by
    split
    · exact h.mono (by decide)
    · exact h.comp (releaseKey_frame _ _) (by decide)
    · exact h.comp (releaseKey_frame _ _) (by decide)
  exact SameOutside.ite h2 (h2.comp (releaseKey_frame _ _) (by decide))

theorem moveFrontier_frame (s : State) (c : Commit) (x : Int) :
    SameOutside [.blu, .cvm] s (s.moveFrontier c x) := by
  unfold State.moveFrontier; dsimp only; split
  · exact (frame_blu s _).comp (finaliseBelow_frame _) (by decide)
  · exact (frame_blu s _).comp (finaliseAll_frame _) (by decide)
  · exact (frame_blu s _).comp (finaliseAll_frame _) (by decide)

theorem completeCommit_frame (s : State) (c : Commit) (rest : List Commit) (x : Int) :
    SameOutside [.blu, .cvm, .igu, .swc] s (s.completeCommit c rest x) :=
  (((commitKeys_frame s c).comp (moveFrontier_frame _ _ _) (n := [.blu, .cvm, .igu, .swc])
    (by decide)).comp (frame_blu _ _) (n := [.blu, .cvm, .igu, .swc]) (by decide)).comp
    (beginCommit_frame _) (by decide)

theorem writeOrdinary_frame (s : State) (k : Nat) (l : List Nat) :
    SameOutside [.swc] s (s.writeOrdinary k l) :=
  (updateKey_frame s _ _).comp (updateKey_frame _ _ _) (by decide)

theorem writeClosure_frame (s : State) (k : Nat) (l : List Nat) :
    SameOutside [.swc] s (s.writeClosure k l) :=
  (updateKey_frame s _ _).comp (updateKey_frame _ _ _) (by decide)

theorem writeJob_frame (s : State) (l : List Nat) (j : SeamJob) :
    SameOutside [.swc] s (s.writeJob l j) := by
  cases j
  · exact writeOrdinary_frame _ _ _
  · exact writeClosure_frame _ _ _

theorem leaveSeam_frame (s : State) (j : SeamJob) (l : List SeamJob) :
    SameOutside [.smu] s (s.leaveSeam j l) :=
  (frame_smu s _).comp (startSeam_frame _) (by decide)

theorem handCommit_frame (s : State) (j : SeamJob) (l : List SeamJob) :
    SameOutside [.smu, .blu] s (s.handCommit j l) :=
  (enterCommit_frame s _).comp (leaveSeam_frame _ _ _) (by decide)

/-! ### Buffer memory -/

theorem noteRead_frame (s : State) (who : Requester) (w : Nat) (f : Bool) :
    SameOutside [.igu, .tku, .smu, .blu, .opu] s (s.noteRead who w f) := by
  cases who <;> (intro b hb; cases b <;> first | exact rfl | exact absurd (by decide) hb)

theorem noteWrite_frame (s : State) (who : Requester) (w : WordWrite) (f : Bool) :
    SameOutside [.igu, .blu, .cvm] s (s.noteWrite who w f) := by
  cases who
  · exact SameOutside.ite ((frame_igu _ _).mono (by decide)) ((frame_igu _ _).mono (by decide))
  · exact SameOutside.rfl'
  · exact SameOutside.rfl'
  · unfold State.noteWrite; dsimp only; split
    · split
      · exact (frame_blu s _).comp (updateStrip_frame _ _ _) (by decide)
      · exact SameOutside.rfl'
    · exact SameOutside.rfl'
  · exact SameOutside.rfl'

theorem storeWord_frame (s : State) (w : WordWrite) (f : Bool) :
    SameOutside [.mem, .ecc] s (s.storeWord w f) := by
  intro b hb; cases b <;> first | exact rfl | exact absurd (by decide) hb

/-! ### Output, the link, the resets -/

theorem presentLine_frame (s : State) (l : List Beat) : SameOutside [.pins] s (s.presentLine l) :=
  frame_pins _ _
theorem presentTrailer_frame (s : State) (x : Transfer) (n : Nat) :
    SameOutside [.pins] s (s.presentTrailer x n) := frame_pins _ _

theorem presentBeat_frame (s : State) : SameOutside [.pins] s s.presentBeat :=
  SameOutside.ite (frame_pins _ _) (SameOutside.ite SameOutside.rfl' (frame_pins _ _))
theorem beginTrailer_frame (s : State) (x : Transfer) (n : Nat) :
    SameOutside [.opu, .pins] s (s.beginTrailer x n) :=
  (frame_opu s _).comp (presentLine_frame _ _) (by decide)

/-- 09 R155, R156: a tick changes the strip output port and OPU alone. -/
theorem tick_frame (s : State) : SameOutside [.opu, .pins] s s.tick := by
  unfold State.tick
  refine SameOutside.ite (SameOutside.ite ((presentBeat_frame s).mono (by decide)) ?_) SameOutside.rfl'
  split
  · exact SameOutside.ite (beginTrailer_frame s _ _) SameOutside.rfl'
  · exact beginTrailer_frame s _ _
  · exact SameOutside.rfl'

theorem transferClean_frame (s : State) (x : Transfer) (r : Strip) :
    SameOutside [.pins, .blu, .cvm, .opu, .lku] s (s.transferClean x r) :=
  ((((((presentTrailer_frame s _ _).comp (removeStrip_frame _ _) (n := [.pins, .cvm]) (by decide)).comp
    (countSent_frame _) (n := [.pins, .cvm]) (by decide)).comp (notifyStrip_frame _ _ _ _ _)
    (n := [.pins, .cvm, .lku]) (by decide)).comp (clearTransfer_frame _)
    (n := [.pins, .cvm, .lku, .opu]) (by decide)).comp (setOpuState_frame _ _)
    (n := [.pins, .cvm, .lku, .opu]) (by decide)).comp (endWait_frame _ _) (by decide)

theorem transferFailed_frame (s : State) (x : Transfer) (r : Strip) :
    SameOutside [.pins, .cvm, .opu, .lku] s (s.transferFailed x r) :=
  ((((presentTrailer_frame s _ _).comp (updateStrip_frame _ _ _) (n := [.pins, .cvm]) (by decide)).comp
    (setOpuState_frame _ _) (n := [.pins, .cvm, .opu]) (by decide)).comp (setOutputHalted_frame _ _)
    (n := [.pins, .cvm, .opu, .lku]) (by decide)).comp (notifyStrip_frame _ _ _ _ _) (by decide)

theorem startTransfer_frame (s : State) (r : Strip) :
    SameOutside [.pins, .cvm, .opu] s (s.startTransfer r) := by
  intro b hb; cases b <;> first | exact rfl | exact absurd (by decide) hb

theorem endHalt_frame (s : State) : SameOutside [.opu, .lku] s s.endHalt := by
  intro b hb; cases b <;> first | exact rfl | exact absurd (by decide) hb

theorem retryStrip_frame (s : State) (r : Strip) : SameOutside [.cvm, .opu, .lku] s (s.retryStrip r) :=
  (updateStrip_frame s _ _).comp (endHalt_frame _) (by decide)

theorem skipStrip_frame (s : State) (r : Strip) :
    SameOutside [.blu, .cvm, .opu, .lku] s (s.skipStrip r) :=
  (((((removeStrip_frame s _).comp (countSkipped_frame _) (n := [.cvm]) (by decide)).comp
    (notifyStrip_frame _ _ _ _ _) (n := [.cvm, .lku]) (by decide)).comp (clearTransfer_frame _)
    (n := [.cvm, .lku, .opu]) (by decide)).comp (endHalt_frame _) (n := [.cvm, .lku, .opu])
    (by decide)).comp (endWait_frame _ _) (by decide)

theorem takeRequest_frame (s : State) (r : Request) : SameOutside [.lku] s (s.takeRequest r) := by
  unfold State.takeRequest; split
  · exact frame_lku _ _
  · split <;> exact frame_lku _ _

theorem receiveByte_frame (s : State) (b : Byte) : SameOutside [.lku] s (s.receiveByte b) := by
  unfold State.receiveByte; split
  · split
    · exact frame_lku _ _
    · exact SameOutside.rfl'
  · split
    · exact frame_lku _ _
    · exact frame_lku _ _
    · exact (frame_lku s _).comp (takeRequest_frame _ _) (by decide)

theorem shiftByte_frame (s : State) : SameOutside [.lku] s s.shiftByte := by
  unfold State.shiftByte; split
  · exact SameOutside.rfl'
  · exact SameOutside.rfl'
  all_goals exact frame_lku _ _

theorem clockByte_frame (s : State) (b : Byte) : SameOutside [.lku] s (s.clockByte b) :=
  (shiftByte_frame s).comp (receiveByte_frame _ b) (by decide)

theorem receive_frame (s : State) (l : List Byte) : SameOutside [.lku] s (s.receive l) :=
  SameOutside.ite (SameOutside.foldl _ clockByte_frame l s) SameOutside.rfl'

theorem cutInbound_frame (s : State) : SameOutside [.lku] s s.cutInbound := by
  unfold State.cutInbound; split
  · exact SameOutside.rfl'
  · exact frame_lku _ _

/-- A request row changes what its handler changes. -/
theorem execute_frame {l : List Block} {s t : State} {type : Byte} {handle : List Byte → State}
    (h : ∀ body, SameOutside l s (handle body)) (ht : s.execute type handle = .next t) :
    SameOutside l s t := by
  unfold State.execute at ht; split at ht
  · cases ht; exact h _
  · cases ht; exact SameOutside.rfl'

theorem withoutFields_frame {l : List Block} {s t : State} (body : List Byte) (hl : Block.lku ∈ l)
    (h : SameOutside l s t) : SameOutside l s (s.withoutFields body t) :=
  SameOutside.ite h ((answer_frame s _).mono (by
    intro b hb; cases List.mem_singleton.mp hb; exact hl))

theorem cutTransfer_frame (s : State) : SameOutside [.pins, .opu] s s.cutTransfer := by
  unfold State.cutTransfer; split
  · exact (frame_pins s _).comp (frame_opu _ _) (by decide)
  · exact SameOutside.rfl'
  all_goals exact (frame_opu _ _).mono (by decide)

theorem orphanAccess_frame (s : State) : SameOutside [.grant] s s.orphanAccess := frame_grant _ _

theorem abandon_frame (s : State) :
    SameOutside [.pins, .igu, .tku, .swc, .smu, .blu, .cvm, .opu, .grant] s s.abandon := by
  refine ((cutTransfer_frame s).comp (orphanAccess_frame _) (n := [.pins, .opu, .grant])
    (by decide)).comp (m := [.igu, .tku, .swc, .smu, .blu, .cvm]) ?_ (by decide)
  intro b hb; cases b <;> first | exact rfl | exact absurd (by decide) hb

theorem emptyNotices_frame (s : State) : SameOutside [.lku] s s.emptyNotices := frame_lku _ _

theorem load_frame (s : State) : SameOutside [.psc, .lku] s s.load := by
  intro b hb; unfold State.load
  cases b <;> first | exact rfl | exact absurd (by decide) hb | (split <;> rfl)

end Sys2Proof.Machine
end

