-- ==== Sys2Proof/Laws/Settle.lean ====
section
/-! SUPPORT. What the end of a command does beside the command's own effect: `settle` (FINISHING may be DONE, a waiting access may be granted), and the end of a sweep. -/
namespace Sys2Proof.Machine

/-! ### The arbiter -/

/-- 10 R162: arbitration changes the grant alone. -/
theorem arbitrate_eq (s : State) : s.arbitrate = { s with grant := s.arbitrate.grant } := rfl

/-- 10 R162: an access in progress stays. -/
theorem arbitrate_of_grant {s : State} {g : Grant} (h : s.grant = some g) : s.arbitrate.grant = some g := by
  unfold State.arbitrate; simp only [h]

/-- 10 R162: with no access in progress the waiting request of highest priority is granted. -/
theorem arbitrate_of_none {s : State} (h : s.grant = none) :
    s.arbitrate.grant = s.highestWaiting.map (fun a => { access := a, live := true }) := by
  unfold State.arbitrate; simp only [h]

/-! ### FINISHING to DONE (05 R100) -/

theorem checkDone_of_not_finishing {s : State} (h : s.swc.state ≠ .finishing) : s.checkDone = s := by
  unfold State.checkDone; rw [if_neg (fun k => h k.1)]

theorem settle_of_not_finishing {s : State} (h : s.swc.state ≠ .finishing) : s.settle = s.arbitrate := by
  unfold State.settle; rw [checkDone_of_not_finishing h]

/-- Outside FINISHING a command ends with arbitration alone. -/
theorem settle_eq {s : State} (h : s.swc.state ≠ .finishing) :
    s.settle = { s with grant := s.settle.grant } := by rw [settle_of_not_finishing h]; rfl

theorem storing_not_finishing {s : State} (h : s.storing = true) : s.swc.state ≠ .finishing := by
  intro k; unfold State.storing at h; rw [k] at h; cases h

/-- A SESSION notice changes nothing of SWC. -/
theorem enterState_swc (s : State) (a : SessionState) :
    (s.enterState a).swc = { s.swc with state := a } := by
  unfold State.enterState; rw [(notifySession_frame _ _ _).swc (by decide)]

theorem enterState_igu (s : State) (a : SessionState) : (s.enterState a).igu = s.igu :=
  (enterState_frame s a).igu (by decide)

theorem freeSlots_swc (s : State) (l : List (Fin 8)) : (s.freeSlots l).swc = s.swc :=
  (freeSlots_frame s l).swc (by decide)

theorem dropLast_swc (s : State) : s.dropLast.swc = { s.swc with tail := .made } := by
  show { (s.freeSlots (s.slotsIn .last)).swc with tail := TailState.made } = _
  rw [freeSlots_swc]

/-- 05 R100: the check changes of SWC's record the state alone, or with it the tail-key decision of a session with no key. -/
theorem checkDone_swc (s : State) :
    s.checkDone.swc = s.swc
    ∨ (s.swc.state = .finishing ∧ s.checkDone.swc = { s.swc with state := .done })
    ∨ (s.swc.state = .finishing ∧ s.swc.keys = []
        ∧ s.checkDone.swc = { s.swc with state := .done, tail := .made }) := by
  unfold State.checkDone
  split
  · rename_i h
    right
    split
    · rename_i k
      right
      refine ⟨h.1, ?_, ?_⟩
      · have := ((Bool.and_eq_true _ _).mp k).1
        exact List.isEmpty_iff.mp this
      · rw [enterState_swc, dropLast_swc]
    · exact .inl ⟨h.1, enterState_swc _ _⟩
  · exact .inl rfl

theorem settle_swc (s : State) :
    s.settle.swc = s.swc
    ∨ (s.swc.state = .finishing ∧ s.settle.swc = { s.swc with state := .done })
    ∨ (s.swc.state = .finishing ∧ s.swc.keys = []
        ∧ s.settle.swc = { s.swc with state := .done, tail := .made }) := checkDone_swc s

theorem settle_keys (s : State) : s.settle.swc.keys = s.swc.keys := by
  rcases settle_swc s with h | ⟨_, h⟩ | ⟨_, _, h⟩ <;> rw [h]

theorem settle_endCause (s : State) : s.settle.swc.endCause = s.swc.endCause := by
  rcases settle_swc s with h | ⟨_, h⟩ | ⟨_, _, h⟩ <;> rw [h]

theorem settle_finishing {s : State} (h : s.swc.state = .finishing) :
    s.settle.swc.state = .finishing ∨ s.settle.swc.state = .done := by
  rcases settle_swc s with k | ⟨_, k⟩ | ⟨_, _, k⟩ <;> rw [k]
  · exact .inl h
  · exact .inr rfl
  · exact .inr rfl

/-- With a key in the table the check leaves every slot as it was. -/
theorem settle_igu {s : State} (h : s.swc.keys ≠ []) : s.settle.igu = s.igu := by
  show s.checkDone.igu = s.igu
  unfold State.checkDone
  split
  · rw [if_neg]
    · exact enterState_igu _ _
    · intro k
      exact h (List.isEmpty_iff.mp ((Bool.and_eq_true _ _).mp k).1)
  · rfl

theorem settle_tku (s : State) : s.settle.tku = s.tku := (settle_frame s).tku (by decide)
theorem settle_smu (s : State) : s.settle.smu = s.smu := (settle_frame s).smu (by decide)
theorem settle_blu (s : State) : s.settle.blu = s.blu := (settle_frame s).blu (by decide)
theorem settle_cvm (s : State) : s.settle.cvm = s.cvm := (settle_frame s).cvm (by decide)
theorem settle_opu (s : State) : s.settle.opu = s.opu := (settle_frame s).opu (by decide)
theorem settle_pins (s : State) : s.settle.pins = s.pins := (settle_frame s).pins (by decide)
theorem settle_mem (s : State) : s.settle.mem = s.mem := (settle_frame s).mem (by decide)
theorem settle_psc (s : State) : s.settle.psc = s.psc := (settle_frame s).psc (by decide)

/-! ### The end of a sweep (05 R98, R99) -/

theorem discardFrames_swc (s : State) : s.discardFrames.swc = s.swc :=
  (discardFrames_frame s).swc (by decide)

theorem dropProvisional_swc (s : State) :
    s.dropProvisional.swc = s.swc
    ∨ (s.swc.keys = [] ∧ s.dropProvisional.swc = { s.swc with cal.provisional := none }) := by
  unfold State.dropProvisional
  split
  · rename_i i h _; exact .inr ⟨h, by
      show ({ (s.freeReference i).swc with cal.provisional := none } : Swc) = _
      rw [(freeReference_frame s i).swc (by decide)]⟩
  · exact .inl rfl

/-- 05 R98: outside the storing states an end cause has no effect. -/
theorem endSweep_of_not_storing {s : State} (h : s.storing = false) (c : EndCause) : s.endSweep c = s := by
  unfold State.endSweep; rw [if_neg (by rw [h]; decide)]

/-- 05 R98, R99: in a storing state the cause is recorded and the session is FINISHING; of SWC's record only a provisional reference goes besides. -/
theorem endSweep_swc {s : State} (h : s.storing = true) (c : EndCause) :
    (s.endSweep c).swc = { s.swc with endCause := some c, state := .finishing }
    ∨ (s.endSweep c).swc = { s.swc with endCause := some c, state := .finishing, cal.provisional := none } := by
  unfold State.endSweep; rw [if_pos h]
  generalize hu : (({ s with swc.endCause := some c } : State).enterState .finishing).discardFrames = u
  have hs : u.swc = { s.swc with endCause := some c, state := .finishing } := by
    rw [← hu, discardFrames_swc, enterState_swc]
  rcases dropProvisional_swc u with k | ⟨_, k⟩ <;> rw [k, hs]
  · exact .inl rfl
  · exact .inr rfl

theorem endSweep_state {s : State} (h : s.storing = true) (c : EndCause) :
    (s.endSweep c).swc.state = .finishing := by
  rcases endSweep_swc h c with k | k <;> rw [k]

theorem endSweep_endCause {s : State} (h : s.storing = true) (c : EndCause) :
    (s.endSweep c).swc.endCause = some c := by
  rcases endSweep_swc h c with k | k <;> rw [k]

theorem endSweep_keys (s : State) (c : EndCause) : (s.endSweep c).swc.keys = s.swc.keys := by
  by_cases h : s.storing = true
  · rcases endSweep_swc h c with k | k <;> rw [k]
  · rw [endSweep_of_not_storing (Bool.not_eq_true _ ▸ h)]

/-! ### SWC's decision on a frame is made -/

/-- 01 R12: the end of a tracked frame, as it is for a frame held as a key and for any other. -/
theorem closeFrame_of_key {s : State} {op : TrackOp} (h : s.heldAsKey op.slot = true) :
    s.closeFrame op = { (s.moveToKey op.slot) with tku.op := none } := by
  unfold State.closeFrame; simp only [h, if_true]

theorem closeFrame_of_other {s : State} {op : TrackOp} (h : s.heldAsKey op.slot = false) :
    s.closeFrame op = { s.moveToLast op.slot with swc.lastResult := op.result, tku.op := none } := by
  unfold State.closeFrame; simp [h]

theorem closeFrame_op (s : State) (op : TrackOp) : (s.closeFrame op).tku.op = none := rfl

/-- The result is kept of a frame that becomes LAST. -/
theorem closeFrame_swc (s : State) (op : TrackOp) : (s.closeFrame op).swc
    = if s.heldAsKey op.slot = true then s.swc else { s.swc with lastResult := op.result } := by
  by_cases h : s.heldAsKey op.slot = true
  · rw [closeFrame_of_key h, if_pos h]
    exact (moveToKey_frame s op.slot).swc (by decide)
  · rw [closeFrame_of_other (Bool.eq_false_iff.mpr h), if_neg h]
    show { (s.moveToLast op.slot).swc with lastResult := op.result } = _
    rw [(moveToLast_frame s op.slot).swc (by decide)]

/-- SWC's decision on a frame is made: without a selection the operation ends, else it waits for them. -/
theorem finishFrame_cases {s : State} {op : TrackOp} (h : s.tku.op = some op) :
    (op.selections = [] ∧ s.finishFrame = s.closeFrame op)
      ∨ (op.selections ≠ [] ∧ s.finishFrame = { s with tku.op := some { op with stage := .finished } }) := by
  unfold State.finishFrame
  rw [h]
  by_cases k : op.selections = []
  · exact .inl ⟨k, if_pos k⟩
  · exact .inr ⟨k, if_neg k⟩

/-- 01 R12: of SWC's record the completion of a decision changes the frame kept as LAST alone. -/
theorem finishFrame_swc (s : State) :
    s.finishFrame.swc = s.swc ∨ ∃ r, s.finishFrame.swc = { s.swc with lastResult := r } := by
  cases h : s.tku.op with
  | none => left; unfold State.finishFrame; rw [h]
  | some op =>
    rcases finishFrame_cases h with ⟨_, e⟩ | ⟨_, e⟩ <;> rw [e]
    · rw [closeFrame_swc]
      split
      · exact .inl rfl
      · exact .inr ⟨_, rfl⟩
    · exact .inl rfl

theorem finishFrame_keys (s : State) : s.finishFrame.swc.keys = s.swc.keys := by
  rcases finishFrame_swc s with h | ⟨r, h⟩ <;> rw [h]
theorem finishFrame_state (s : State) : s.finishFrame.swc.state = s.swc.state := by
  rcases finishFrame_swc s with h | ⟨r, h⟩ <;> rw [h]
theorem finishFrame_endCause (s : State) : s.finishFrame.swc.endCause = s.swc.endCause := by
  rcases finishFrame_swc s with h | ⟨r, h⟩ <;> rw [h]

/-- 02 R23, R40: once the decision is made the operation ends, or waits for its selections. -/
theorem finishFrame_op (s : State) : s.finishFrame.tku.op =
    match s.tku.op with
    | none => none
    | some op => if op.selections = [] then none else some { op with stage := .finished } := by
  cases h : s.tku.op with
  | none => unfold State.finishFrame; rw [h]; exact h
  | some op =>
    rcases finishFrame_cases h with ⟨k, e⟩ | ⟨k, e⟩ <;> rw [e] <;> simp only [k, if_true, if_false]
    exact closeFrame_op s op

end Sys2Proof.Machine
end

