-- ==== Sys2Proof/Laws/Kept.lean ====
section
/-! SUPPORT. What every shared operation keeps: the invariants of Safety.lean, the session id, the event flags, the store, the taken part of every key, and the queues of the link but for notices. Each operation has one lemma; they compose as the operations do. -/
namespace Sys2Proof.Machine

/-- What the states before and after an operation have in common, but for the port's levels and the relation of the ring to the session. -/
structure KeptCore (s t : State) : Prop where
  gyro : s.GyroInRange → t.GyroInRange
  counts : s.CountsHold → t.CountsHold
  sameId : t.swc.id = s.swc.id
  flags : s.lku.flags.Within t.lku.flags
  keys : ∀ (k : Nat) (r : KeyRecord), s.swc.keys[k]? = some r →
    ∃ r', t.swc.keys[k]? = some r' ∧ r'.SameTaking r
  link : t.lku.requests = s.lku.requests ∧ t.lku.executing = s.lku.executing
    ∧ t.lku.replies = s.lku.replies
  notices : s.lku.notices.length ≤ 16 → t.lku.notices.length ≤ 16

/-- The same with the port's levels. -/
structure KeptBase (s t : State) : Prop extends KeptCore s t where
  ports : s.PortLevels → t.PortLevels

/-- What the states before and after an operation have in common. -/
structure Kept (s t : State) : Prop extends KeptBase s t where
  ring : s.RingFollowsSession → t.RingFollowsSession

/-! ### Composition -/

theorem EventFlags.Within.rfl' (a : EventFlags) : a.Within a := ⟨id, id, id, id, id⟩

theorem EventFlags.Within.trans {a b c : EventFlags} (h : a.Within b) (k : b.Within c) : a.Within c :=
  ⟨k.1 ∘ h.1, k.2.1 ∘ h.2.1, k.2.2.1 ∘ h.2.2.1, k.2.2.2.1 ∘ h.2.2.2.1, k.2.2.2.2 ∘ h.2.2.2.2⟩

theorem KeyRecord.SameTaking.rfl' (r : KeyRecord) : r.SameTaking r :=
  ⟨rfl, rfl, rfl, rfl, rfl, rfl, rfl, rfl⟩

theorem KeyRecord.SameTaking.trans {a b c : KeyRecord} (h : a.SameTaking b) (k : b.SameTaking c) :
    a.SameTaking c := by
  obtain ⟨h1, h2, h3, h4, h5, h6, h7, h8⟩ := h
  obtain ⟨k1, k2, k3, k4, k5, k6, k7, k8⟩ := k
  exact ⟨h1.trans k1, h2.trans k2, h3.trans k3, h4.trans k4, h5.trans k5, h6.trans k6, h7.trans k7,
    h8.trans k8⟩

theorem KeptCore.refl (s : State) : KeptCore s s where
  gyro := id
  counts := id
  sameId := rfl
  flags := EventFlags.Within.rfl' _
  keys := fun _ r h => ⟨r, h, KeyRecord.SameTaking.rfl' r⟩
  link := ⟨rfl, rfl, rfl⟩
  notices := id

theorem KeptCore.trans {s t u : State} (h : KeptCore s t) (k : KeptCore t u) : KeptCore s u where
  gyro := k.gyro ∘ h.gyro
  counts := k.counts ∘ h.counts
  sameId := k.sameId.trans h.sameId
  flags := h.flags.trans k.flags
  keys := fun n r hr => by
    obtain ⟨r', h', e'⟩ := h.keys n r hr
    obtain ⟨r'', h'', e''⟩ := k.keys n r' h'
    exact ⟨r'', h'', e''.trans e'⟩
  link := ⟨k.link.1.trans h.link.1, k.link.2.1.trans h.link.2.1, k.link.2.2.trans h.link.2.2⟩
  notices := k.notices ∘ h.notices

theorem KeptBase.refl (s : State) : KeptBase s s := { KeptCore.refl s with ports := id }

theorem KeptBase.trans {s t u : State} (h : KeptBase s t) (k : KeptBase t u) : KeptBase s u :=
  { h.toKeptCore.trans k.toKeptCore with ports := k.ports ∘ h.ports }

/-- An operation of the port: what it keeps, with the levels it leaves, and the ring and the session it does not touch. -/
theorem Kept.ofCore {s t : State} (h : KeptCore s t) (hp : s.PortLevels → t.PortLevels)
    (h1 : t.igu = s.igu) (h2 : t.swc = s.swc) : Kept s t :=
  { h with
    ports := hp
    ring := fun k hs j => by
      unfold State.storing at hs
      rw [h2] at hs
      unfold State.slotState
      rw [h1]
      exact k hs j }

theorem Kept.refl (s : State) : Kept s s := { KeptBase.refl s with ring := id }

theorem Kept.trans {s t u : State} (h : Kept s t) (k : Kept t u) : Kept s u :=
  { h.toKeptBase.trans k.toKeptBase with ring := k.ring ∘ h.ring }

theorem Kept.ite {s t u : State} {p : Prop} [Decidable p] (h : p → Kept s t) (k : ¬p → Kept s u) :
    Kept s (if p then t else u) := by
  by_cases hp : p
  · rw [if_pos hp]; exact h hp
  · rw [if_neg hp]; exact k hp

theorem Kept.foldl {α : Type} (f : State → α → State) (hf : ∀ s a, Kept s (f s a)) (xs : List α)
    (s : State) : Kept s (xs.foldl f s) := by
  induction xs generalizing s with
  | nil => exact Kept.refl _
  | cons a as ih => exact (hf s a).trans (ih _)

/-! ### One block changed -/

/-- The keys of a table are kept when it is the same table. -/
theorem keys_same {l m : List KeyRecord} (h : m = l) (k : Nat) (r : KeyRecord) (hr : l[k]? = some r) :
    ∃ r', m[k]? = some r' ∧ r'.SameTaking r := ⟨r, h ▸ hr, KeyRecord.SameTaking.rfl' r⟩

/-- A slot in work: FILLING, FILLED-WAIT or QUEUED. -/
def SlotState.inWork : SlotState → Prop
  | .filling | .filledWait | .queued => True
  | _ => False

theorem inWork_iff (st : SlotState) :
    st.inWork ↔ ¬(st ≠ .filling ∧ st ≠ .filledWait ∧ st ≠ .queued) := by
  cases st <;> simp [SlotState.inWork]

theorem kept_igu (s : State) (x : Igu)
    (hring : ∀ i : Fin 8, x.slots[i].state.inWork → s.storing = true ∨ s.igu.slots[i].state.inWork)
    (hsnap : ∀ (i : Fin 8) (r : FrameRecord), x.slots[i].record = some r →
      ∃ (j : Fin 8) (r' : FrameRecord), s.igu.slots[j].record = some r' ∧ r.snapshot = r'.snapshot)
    (hdrop : s.igu.dropped ≤ 65535 → x.dropped ≤ 65535) (hgeo : s.igu.geoRun ≤ 8 → x.geoRun ≤ 8) :
    Kept s { s with igu := x } where
  gyro := fun h => ⟨h.1, fun i r hr => by
    obtain ⟨j, r', h', e⟩ := hsnap i r hr
    rw [e]; exact h.2 j r' h'⟩
  counts := fun h => by
    obtain ⟨h1, h2, h3, h4, h5⟩ := h
    exact ⟨h1, h2, hdrop h3, hgeo h4, h5⟩
  ports := id
  ring := fun h hs i => by
    rcases Classical.em (x.slots[i].state.inWork) with hw | hw
    · rcases hring i hw with h2 | h2
      · have : s.storing = false := hs
        rw [h2] at this; exact absurd this (by decide)
      · exact absurd (h hs i) ((inWork_iff _).mp h2)
    · exact Classical.not_not.mp (fun k => hw ((inWork_iff _).mpr k))
  sameId := rfl
  flags := EventFlags.Within.rfl' _
  keys := keys_same rfl
  link := ⟨rfl, rfl, rfl⟩
  notices := id

theorem kept_tku (s : State) (x : Tku) (h : x.gyro = s.tku.gyro) : Kept s { s with tku := x } where
  gyro := fun k => ⟨by rw [show ({ s with tku := x } : State).tku.gyro = s.tku.gyro from h]; exact k.1, k.2⟩
  counts := id
  ports := id
  ring := id
  sameId := rfl
  flags := EventFlags.Within.rfl' _
  keys := keys_same rfl
  link := ⟨rfl, rfl, rfl⟩
  notices := id

theorem base_swc (s : State) (x : Swc) (hid : x.id = s.swc.id)
    (hf : s.swc.framesPerKey ≤ 65535 → x.framesPerKey ≤ 65535)
    (hk : ∀ (k : Nat) (r : KeyRecord), s.swc.keys[k]? = some r →
      ∃ r', x.keys[k]? = some r' ∧ r'.SameTaking r) : KeptBase s { s with swc := x } where
  gyro := id
  counts := fun h => by
    obtain ⟨h1, h2, h3, h4, h5, h6⟩ := h
    exact ⟨h1, h2, h3, h4, hf h5, h6⟩
  ports := id
  sameId := hid
  flags := EventFlags.Within.rfl' _
  keys := hk
  link := ⟨rfl, rfl, rfl⟩
  notices := id

theorem kept_swc (s : State) (x : Swc) (hid : x.id = s.swc.id)
    (hst : x.state.storing = true ∨ s.storing = false ∨ x.state = s.swc.state)
    (hf : s.swc.framesPerKey ≤ 65535 → x.framesPerKey ≤ 65535)
    (hk : ∀ (k : Nat) (r : KeyRecord), s.swc.keys[k]? = some r →
      ∃ r', x.keys[k]? = some r' ∧ r'.SameTaking r) : Kept s { s with swc := x } :=
  { base_swc s x hid hf hk with
    ring := fun h hs => by
      have e : x.state.storing = false := hs
      rcases hst with h1 | h1 | h1
      · rw [e] at h1; exact absurd h1 (by decide)
      · exact h h1
      · exact h (by unfold State.storing; rw [← h1]; exact e) }

/-- SWC's record with the state and the key table as they were. -/
theorem kept_swc_plain (s : State) (x : Swc) (hid : x.id = s.swc.id) (hst : x.state = s.swc.state)
    (hf : s.swc.framesPerKey ≤ 65535 → x.framesPerKey ≤ 65535) (hk : x.keys = s.swc.keys) :
    Kept s { s with swc := x } := kept_swc s x hid (.inr (.inr hst)) hf (keys_same hk)

theorem kept_smu (s : State) (x : Smu) (h : s.smu.queue.length ≤ 2 → x.queue.length ≤ 2) :
    Kept s { s with smu := x } where
  gyro := id
  counts := fun k => by
    obtain ⟨h1, h2⟩ := k
    exact ⟨h h1, h2⟩
  ports := id
  ring := id
  sameId := rfl
  flags := EventFlags.Within.rfl' _
  keys := keys_same rfl
  link := ⟨rfl, rfl, rfl⟩
  notices := id

theorem kept_blu (s : State) (x : Blu) (h : s.blu.queue.length ≤ 2 → x.queue.length ≤ 2) :
    Kept s { s with blu := x } where
  gyro := id
  counts := fun k => by
    obtain ⟨h1, h2, h3⟩ := k
    exact ⟨h1, h h2, h3⟩
  ports := id
  ring := id
  sameId := rfl
  flags := EventFlags.Within.rfl' _
  keys := keys_same rfl
  link := ⟨rfl, rfl, rfl⟩
  notices := id

theorem kept_cvm (s : State) (x : Cvm) (hd : s.cvm.discarded ≤ 65535 → x.discarded ≤ 65535)
    (hk : s.cvm.skipped ≤ 65535 → x.skipped ≤ 65535) (hs : s.cvm.sent ≤ 65535 → x.sent ≤ 65535)
    (hg : s.cvm.damaged ≤ 65535 → x.damaged ≤ 65535) : Kept s { s with cvm := x } where
  gyro := id
  counts := fun k => by
    obtain ⟨h1, h2, h3, h4, h5, h6, h7, h8, h9, h10⟩ := k
    exact ⟨h1, h2, h3, h4, h5, hd h6, hk h7, hs h8, hg h9, h10⟩
  ports := id
  ring := id
  sameId := rfl
  flags := EventFlags.Within.rfl' _
  keys := keys_same rfl
  link := ⟨rfl, rfl, rfl⟩
  notices := id

/-- CVM's counts as they were. -/
theorem kept_cvm_plain (s : State) (x : Cvm) (hd : x.discarded = s.cvm.discarded)
    (hk : x.skipped = s.cvm.skipped) (hs : x.sent = s.cvm.sent) (hg : x.damaged = s.cvm.damaged) :
    Kept s { s with cvm := x } :=
  kept_cvm s x (hd ▸ id) (hk ▸ id) (hs ▸ id) (hg ▸ id)

theorem kept_opu (s : State) (x : Opu) (hst : x.state = s.opu.state)
    (hn : s.opu.number ≤ 65535 → x.number ≤ 65535) : Kept s { s with opu := x } where
  gyro := id
  counts := fun k => by
    obtain ⟨h1, h2, h3, h4, h5, h6, h7, h8, h9, h10⟩ := k
    exact ⟨h1, h2, h3, h4, h5, h6, h7, h8, h9, hn h10⟩
  ports := fun k => by
    unfold State.PortLevels at *
    rw [show ({ s with opu := x } : State).opu.state = s.opu.state from hst]
    exact k
  ring := id
  sameId := rfl
  flags := EventFlags.Within.rfl' _
  keys := keys_same rfl
  link := ⟨rfl, rfl, rfl⟩
  notices := id

theorem kept_pins (s : State) (x : Pins) (hf : x.sopFv = s.pins.sopFv) (hl : x.sopLv = s.pins.sopLv)
    (hb : s.pins.sopBeat ≤ s.pins.sopLine.length → x.sopBeat ≤ x.sopLine.length) :
    Kept s { s with pins := x } where
  gyro := id
  counts := id
  ports := fun k => by
    unfold State.PortLevels at *
    rw [show ({ s with pins := x } : State).pins.sopFv = s.pins.sopFv from hf,
      show ({ s with pins := x } : State).pins.sopLv = s.pins.sopLv from hl]
    exact ⟨k.1, k.2.1, hb k.2.2⟩
  ring := id
  sameId := rfl
  flags := EventFlags.Within.rfl' _
  keys := keys_same rfl
  link := ⟨rfl, rfl, rfl⟩
  notices := id

theorem kept_lku (s : State) (x : Lku) (hf : s.lku.flags.Within x.flags)
    (hl : x.requests = s.lku.requests ∧ x.executing = s.lku.executing ∧ x.replies = s.lku.replies)
    (hn : s.lku.notices.length ≤ 16 → x.notices.length ≤ 16) : Kept s { s with lku := x } where
  gyro := id
  counts := id
  ports := id
  ring := id
  sameId := rfl
  flags := hf
  keys := keys_same rfl
  link := hl
  notices := hn

theorem kept_grant (s : State) (x : Option Grant) : Kept s { s with grant := x } :=
  { KeptCore.refl s with ports := id, ring := id }
theorem kept_mem (s : State) (x : List Host.Cell) : Kept s { s with mem := x } :=
  { KeptCore.refl s with ports := id, ring := id }
theorem kept_ecc (s : State) (x : List (Nat × WordMark)) : Kept s { s with ecc := x } :=
  { KeptCore.refl s with ports := id, ring := id }
theorem kept_psc (s : State) (x : Psc) : Kept s { s with psc := x } :=
  { KeptCore.refl s with ports := id, ring := id }

theorem addHold_le (x n : Nat) : addHold Config.countTop x n ≤ 65535 := Nat.min_le_left _ _

/-! ### Flags and notices -/

theorem notify_kept (s : State) (n : NoticeBody) : Kept s (s.notify n) := by
  unfold State.notify; split
  · rename_i h
    refine kept_lku s _ (EventFlags.Within.rfl' _) ⟨rfl, rfl, rfl⟩ (fun _ => ?_)
    rw [show Config.noticePlaces = 16 from rfl] at h
    simp only [List.length_append, List.length_singleton]; omega
  · exact kept_lku s _ ⟨id, id, fun _ => rfl, id, id⟩ ⟨rfl, rfl, rfl⟩ id

theorem noteFrameDropped_kept (s : State) : Kept s s.noteFrameDropped :=
  kept_lku s _ ⟨id, id, id, fun _ => rfl, id⟩ ⟨rfl, rfl, rfl⟩ id
theorem noteEccError_kept (s : State) : Kept s s.noteEccError :=
  kept_lku s _ ⟨id, id, id, id, fun _ => rfl⟩ ⟨rfl, rfl, rfl⟩ id
theorem setOutputHalted_kept (s : State) (b : Bool) : Kept s (s.setOutputHalted b) :=
  kept_lku s _ (EventFlags.Within.rfl' _) ⟨rfl, rfl, rfl⟩ id
theorem setBurnFailed_kept (s : State) (b : Bool) : Kept s (s.setBurnFailed b) :=
  kept_lku s _ (EventFlags.Within.rfl' _) ⟨rfl, rfl, rfl⟩ id
theorem setProfileBad_kept (s : State) (b : Bool) : Kept s (s.setProfileBad b) :=
  kept_lku s _ (EventFlags.Within.rfl' _) ⟨rfl, rfl, rfl⟩ id

theorem notifySession_kept (s : State) (a b : SessionState) : Kept s (s.notifySession a b) :=
  notify_kept _ _

/-- Between storing states, into one, or among the others, the session may move. -/
theorem enterState_kept (s : State) (a : SessionState) (h : a.storing = true ∨ s.storing = false) :
    Kept s (s.enterState a) :=
  (kept_swc s { s.swc with state := a } rfl (h.imp id .inl) id (keys_same rfl)).trans
    (notifySession_kept _ _ _)

/-! ### Slots -/

theorem slots_get_set (v : Vector FrameSlot 8) (i j : Fin 8) (x : FrameSlot) :
    (v.set i x)[j] = if j = i then x else v[j] := by
  have := Vector.getElem_set (xs := v) (i := i.val) (x := x) i.isLt (j := j.val) j.isLt
  simp only [Fin.getElem_fin, this]
  by_cases h : j = i
  · rw [if_pos h, if_pos (by rw [h])]
  · rw [if_neg h, if_neg (fun e => h (Fin.ext e.symm))]

/-- A slot changed to a state that is not in work, its record the same or none. -/
theorem kept_slot (s : State) (i : Fin 8) (x : FrameSlot) (hw : ¬ x.state.inWork ∨ s.storing = true)
    (hr : x.record = none ∨ x.record = s.igu.slots[i].record) :
    Kept s { s with igu.slots := s.igu.slots.set i x } := by
  refine kept_igu s _ (fun j hj => ?_) (fun j r hj => ?_) id id
  · change (s.igu.slots.set i x)[j].state.inWork at hj
    rw [slots_get_set] at hj
    split at hj
    · exact (hw.resolve_left (fun k => k hj) |> .inl)
    · exact .inr hj
  · change (s.igu.slots.set i x)[j].record = some r at hj
    rw [slots_get_set] at hj
    split at hj
    · rcases hr with h | h
      · rw [h] at hj; cases hj
      · exact ⟨i, r, h ▸ hj, rfl⟩
    · exact ⟨j, r, hj, rfl⟩

theorem freeSlot_kept (s : State) (i : Fin 8) : Kept s (s.freeSlot i) :=
  kept_slot s i {} (.inl (fun h => h)) (.inl rfl)

theorem setSlotState_kept (s : State) (i : Fin 8) (st : SlotState) (h : ¬ st.inWork ∨ s.storing = true) :
    Kept s (s.setSlotState i st) := kept_slot s i _ h (.inr rfl)

theorem freeSlots_kept (s : State) (l : List (Fin 8)) : Kept s (s.freeSlots l) :=
  Kept.foldl _ freeSlot_kept l s

theorem moveToLast_kept (s : State) (i : Fin 8) : Kept s (s.moveToLast i) :=
  (freeSlots_kept s _).trans (setSlotState_kept _ _ _ (.inl (fun h => h)))

theorem moveToKey_kept (s : State) (i : Fin 8) : Kept s (s.moveToKey i) :=
  (freeSlots_kept s _).trans (setSlotState_kept _ _ _ (.inl (fun h => h)))

theorem withdrawLines_kept (s : State) (i : Fin 8) : Kept s (s.withdrawLines i) :=
  (kept_igu s { s.igu with lineBuffers := s.igu.lineBuffers.filter (fun b => decide (b.slot ≠ i)) }
    (fun _ h => .inr h) (fun j r h => ⟨j, r, h, rfl⟩) id id).trans (kept_grant _ _)

/-! ### The gyro accumulator -/

theorem clampSum_range (x : Int) : -2000000 ≤ clampSum x ∧ clampSum x ≤ 2000000 := by
  unfold clampSum clampInt Config.gyroSumTop; omega

theorem Gyro.put_inRange (g : Gyro) (y p : Int) : (g.put y p).InRange :=
  ⟨(clampSum_range _).1, (clampSum_range _).2, (clampSum_range _).1, (clampSum_range _).2⟩

theorem Gyro.handBack_inRange (g snap : Gyro) : (g.handBack snap).InRange :=
  ⟨(clampSum_range _).1, (clampSum_range _).2, (clampSum_range _).1, (clampSum_range _).2⟩

theorem Gyro.clear_inRange : ({} : Gyro).InRange := by unfold Gyro.InRange; decide

/-- The accumulator replaced by sums in range. -/
theorem kept_gyro (s : State) (x : Tku) (h : x.gyro.InRange) : Kept s { s with tku := x } where
  gyro := fun k => ⟨h, k.2⟩
  counts := id
  ports := id
  ring := id
  sameId := rfl
  flags := EventFlags.Within.rfl' _
  keys := keys_same rfl
  link := ⟨rfl, rfl, rfl⟩
  notices := id

theorem endUnaccepted_kept (s : State) (i : Fin 8) : Kept s (s.endUnaccepted i) :=
  ((withdrawLines_kept s i).trans (freeSlot_kept _ i)).trans
    (kept_gyro _ _ (Gyro.handBack_inRange _ _))

theorem countDropped_kept (s : State) : Kept s s.countDropped :=
  (kept_igu s { s.igu with dropped := addHold Config.countTop s.igu.dropped 1 } (fun _ h => .inr h)
    (fun j r h => ⟨j, r, h, rfl⟩) (fun _ => addHold_le _ _) id).trans (noteFrameDropped_kept _)

theorem countGeometry_kept (s : State) : Kept s s.countGeometry := by
  unfold State.countGeometry; split
  · exact kept_igu s _ (fun _ h => .inr h) (fun j r h => ⟨j, r, h, rfl⟩) id (fun _ => by dsimp only; omega)
  · exact Kept.refl _

theorem abortFilling_kept (s : State) : Kept s s.abortFilling := by
  unfold State.abortFilling; split
  · exact (endUnaccepted_kept s _).trans (countDropped_kept _)
  · exact Kept.refl _

theorem startFrame_kept (s : State) (i : Fin 8) (c : BitVec 8) (e : Nat) (h : s.storing = true) :
    Kept s (s.startFrame i c e) := by
  refine ⟨⟨⟨fun g => ⟨Gyro.clear_inRange, fun j r hj => ?_⟩, id, rfl,
    EventFlags.Within.rfl' _, keys_same rfl, ⟨rfl, rfl, rfl⟩, id⟩, id⟩, fun _ hs => ?_⟩
  · change (s.igu.slots.set i _)[j].record = some r at hj
    rw [slots_get_set] at hj
    split at hj
    · cases hj; exact g.1
    · exact g.2 j r hj
  · change s.storing = false at hs
    rw [h] at hs; exact absurd hs (by decide)

theorem frameStart_kept (s : State) (l : List Beat) : Kept s (s.frameStart l) := by
  unfold State.frameStart; split
  · exact Kept.refl _
  · rename_i hs
    have hs : s.storing = true := by simpa using hs
    split
    · split
      · exact Kept.refl _
      · split
        · exact startFrame_kept _ _ _ _ hs
        · exact countDropped_kept _
    · exact countGeometry_kept _

theorem takeLine_kept (s : State) (i : Fin 8) (tag : Beat) (l : List Beat) :
    Kept s (s.takeLine i tag l) :=
  kept_igu s _ (fun _ h => .inr h) (fun j r h => ⟨j, r, h, rfl⟩) id id

theorem startPrepare_kept (s : State) (i : Fin 8) : Kept s (s.startPrepare i) :=
  (setSlotState_kept s i .preparing (.inl (fun h => h))).trans
    (kept_igu _ _ (fun _ h => .inr h) (fun j r h => ⟨j, r, h, rfl⟩) id id)

theorem acceptFrame_kept (s : State) (i : Fin 8) (r : FrameRecord)
    (hw : s.igu.slots[i].state.inWork) (hr : s.igu.slots[i].record = some r) :
    Kept s (s.acceptFrame i r) := by
  have h (x : Igu) (hs : x.slots = s.igu.slots.set i
      { state := .filledWait
        record := some { r with stored := some s.igu.nextStored
                                interval := some (intervalOf s.igu.lastCounter r.counter) } })
      (hd : x.dropped = s.igu.dropped) (hg : x.geoRun = 0) : Kept s { s with igu := x } := by
    refine kept_igu s x (fun j hj => ?_) (fun j q hj => ?_) (fun k => hd ▸ k)
      (fun _ => hg ▸ Nat.zero_le 8)
    · rw [hs, slots_get_set] at hj
      split at hj
      · rename_i e; exact .inr (e ▸ hw)
      · exact .inr hj
    · rw [hs, slots_get_set] at hj
      split at hj
      · cases hj; exact ⟨i, r, hr, rfl⟩
      · exact ⟨j, q, hj, rfl⟩
  unfold State.acceptFrame State.putSlot
  dsimp only
  split
  · refine Kept.trans ?_ (startPrepare_kept _ i)
    exact h _ rfl rfl rfl
  · exact h _ rfl rfl rfl

/-! ### The end of a sweep -/

/-- Freeing a list of slots: those of the list are FREE, the others as they were. -/
theorem freeSlots_get (l : List (Fin 8)) (s : State) (j : Fin 8) :
    (s.freeSlots l).igu.slots[j] = if j ∈ l then {} else s.igu.slots[j] := by
  induction l generalizing s with
  | nil => simp [State.freeSlots]
  | cons a as ih =>
    have e : s.freeSlots (a :: as) = (s.freeSlot a).freeSlots as := rfl
    rw [e, ih]
    have g : (s.freeSlot a).igu.slots[j] = if j = a then {} else s.igu.slots[j] := slots_get_set _ _ _ _
    rw [g]
    by_cases h1 : j ∈ as <;> by_cases h2 : j = a <;> simp [h1, h2]

theorem mem_slotsIn (s : State) (st : SlotState) (j : Fin 8) :
    j ∈ s.slotsIn st ↔ s.igu.slots[j].state = st := by
  simp only [State.slotsIn, List.mem_filter, List.mem_finRange, true_and]
  exact ⟨of_decide_eq_true, decide_eq_true⟩

/-- The slots after the lines and the slots of a list are withdrawn. -/
theorem withdraw_get (l : List (Fin 8)) (s : State) (j : Fin 8) :
    (l.foldl (fun t i => (t.withdrawLines i).freeSlot i) s).igu.slots[j]
      = if j ∈ l then {} else s.igu.slots[j] := by
  induction l generalizing s with
  | nil => simp
  | cons a as ih =>
    rw [List.foldl_cons, ih]
    have g : ((s.withdrawLines a).freeSlot a).igu.slots[j] = if j = a then {} else s.igu.slots[j] :=
      slots_get_set _ _ _ _
    rw [g]
    by_cases h1 : j ∈ as <;> by_cases h2 : j = a <;> simp [h1, h2]

/-- 01 R13: after the discard no slot is in work. -/
theorem discardFrames_noWork (s : State) (j : Fin 8) : ¬ s.discardFrames.igu.slots[j].state.inWork := by
  unfold State.discardFrames
  dsimp only
  rw [freeSlots_get]
  split
  · exact fun h => h
  · rename_i h
    intro hw
    rw [mem_slotsIn] at h
    rw [withdraw_get] at h hw
    split at hw
    · exact hw
    · rename_i h2
      rw [if_neg h2] at h
      simp only [List.mem_append, mem_slotsIn, not_or] at h2
      revert hw h h2
      cases s.igu.slots[j].state <;> simp [SlotState.inWork]

/-- With no slot in work the ring follows the session. -/
theorem ring_of_noWork (s : State) (h : ∀ j : Fin 8, ¬ s.igu.slots[j].state.inWork) :
    s.RingFollowsSession :=
  fun _ j => Classical.not_not.mp (fun k => h j ((inWork_iff _).mpr k))

/-- 01 R13: the discard of a sweep's end, with the session in a state that no longer stores. -/
theorem discardFrames_kept (s : State) : Kept s s.discardFrames :=
  (Kept.foldl _ (fun t i => (withdrawLines_kept t i).trans (freeSlot_kept _ i)) _ s).trans
    (freeSlots_kept _ _)

theorem freeReference_kept (s : State) (i : Fin 8) : Kept s (s.freeReference i) :=
  Kept.ite (fun _ => Kept.refl s) (fun _ => freeSlot_kept s i)

theorem dropProvisional_state (s : State) : s.dropProvisional.swc.state = s.swc.state := by
  unfold State.dropProvisional; split
  · show (s.freeReference _).swc.state = _
    rw [(freeReference_frame s _).swc (by decide)]
  · rfl

theorem dropProvisional_kept (s : State) : Kept s s.dropProvisional := by
  unfold State.dropProvisional; split
  · exact (freeReference_kept s _).trans (kept_swc_plain _ _ (by rfl) (by rfl) id (by rfl))
  · exact Kept.refl _

/-- The move to a state, whatever it is, but for the ring. -/
theorem enterState_base (s : State) (a : SessionState) : KeptBase s (s.enterState a) :=
  (base_swc s { s.swc with state := a } rfl id (keys_same rfl)).trans
    (notifySession_kept _ _ _).toKeptBase

/-- 05 R98: the end cause is recorded. -/
theorem endCause_kept (s : State) (o : Option EndCause) : Kept s { s with swc.endCause := o } :=
  kept_swc_plain s _ rfl rfl id rfl

theorem endSweep_kept (s : State) (c : EndCause) : Kept s (s.endSweep c) := by
  have h (t : State) : Kept t (t.enterState .finishing).discardFrames :=
    { (enterState_base t .finishing).trans (discardFrames_kept _).toKeptBase with
      ring := fun _ => ring_of_noWork _ (discardFrames_noWork _) }
  unfold State.endSweep; split
  · exact ((endCause_kept s (some c)).trans (h _)).trans (dropProvisional_kept _)
  · exact Kept.refl _

theorem dropLast_kept (s : State) : Kept s s.dropLast :=
  (freeSlots_kept s _).trans (kept_swc_plain _ _ (by rfl) (by rfl) id (by rfl))

theorem dropLast_state (s : State) : s.dropLast.swc.state = s.swc.state := by
  show (s.freeSlots (s.slotsIn .last)).swc.state = _
  rw [(freeSlots_frame s (s.slotsIn .last)).swc (by decide)]

theorem checkDone_kept (s : State) : Kept s s.checkDone := by
  unfold State.checkDone
  refine Kept.ite (fun h => ?_) (fun _ => Kept.refl _)
  by_cases k : (s.swc.keys.isEmpty && s.tailCalled) = true
  · rw [if_pos k]
    exact (dropLast_kept s).trans (enterState_kept _ _ (.inr (by
      unfold State.storing; rw [dropLast_state, h.1]; rfl)))
  · rw [if_neg k]
    exact enterState_kept _ _ (.inr (by unfold State.storing; rw [h.1]; rfl))

theorem arbitrate_kept (s : State) : Kept s s.arbitrate := kept_grant _ _

theorem settle_kept (s : State) : Kept s s.settle := (checkDone_kept s).trans (arbitrate_kept _)

/-- An operation followed by `settle`. -/
theorem Kept.settled {s t : State} (h : Kept s t) : Kept s t.settle := h.trans (settle_kept t)

/-- The end of a sweep leaves storing states only; outside them nothing. -/
theorem endSweep_notStoring (s : State) (c : EndCause) : (s.endSweep c).storing = false := by
  have h (t : State) : t.discardFrames.dropProvisional.swc.state = t.swc.state := by
    rw [dropProvisional_state, (discardFrames_frame t).swc (by decide)]
  have k (t : State) : (t.enterState .finishing).swc.state = .finishing := by
    unfold State.enterState State.notifySession State.notify
    split <;> rfl
  unfold State.endSweep; split
  · unfold State.storing; rw [h, k]; rfl
  · rename_i h; exact Bool.not_eq_true _ ▸ h

/-! ### Keys and strips -/

theorem getElem?_modify_same (l : List KeyRecord) (k : Nat) (f : KeyRecord → KeyRecord)
    (hf : ∀ r, (f r).SameTaking r) (n : Nat) (r : KeyRecord) (h : l[n]? = some r) :
    ∃ r', (l.modify k f)[n]? = some r' ∧ r'.SameTaking r := by
  rw [List.getElem?_modify, h]
  by_cases e : k = n
  · exact ⟨f r, by simp [e], hf r⟩
  · exact ⟨r, by simp [e], KeyRecord.SameTaking.rfl' r⟩

theorem updateKey_kept (s : State) (k : Nat) (f : KeyRecord → KeyRecord)
    (hf : ∀ r, (f r).SameTaking r) : Kept s (s.updateKey k f) :=
  kept_swc s _ (by rfl) (.inr (.inr (by rfl))) id (getElem?_modify_same _ k f hf)

theorem releaseKey_kept (s : State) (k : Nat) : Kept s (s.releaseKey k) := by
  have h := updateKey_kept s k (fun r => { r with state := .released, slot := none })
    (fun r => ⟨rfl, rfl, rfl, rfl, rfl, rfl, rfl, rfl⟩)
  unfold State.releaseKey; dsimp only; split
  · exact h.trans (freeSlot_kept _ _)
  · exact h

theorem updateStrip_kept (s : State) (j : Nat) (f : Strip → Strip) : Kept s (s.updateStrip j f) :=
  kept_cvm_plain s _ (by rfl) (by rfl) (by rfl) (by rfl)

theorem removeStrip_kept (s : State) (j : Nat) : Kept s (s.removeStrip j) := by
  refine kept_cvm s _ id id id (fun h => ?_)
  dsimp only
  split
  · split
    · exact addHold_le _ _
    · exact h
  · exact h

/-! ### SWC's decision -/

theorem setStage_kept (s : State) (st : TrackStage) : Kept s (s.setStage st) := kept_tku s _ rfl
theorem askSelection_kept (s : State) (k : SetKind) (i : Fin 8) : Kept s (s.askSelection k i) :=
  kept_tku s _ (by rfl)
theorem rebase_kept (s : State) (r : FrameResult) : Kept s (s.rebase r) := kept_tku s _ rfl

theorem closeFrame_kept (s : State) (op : TrackOp) : Kept s (s.closeFrame op) := by
  have h (t : State) (o : Option FrameResult) : Kept t { t with swc.lastResult := o } :=
    kept_swc_plain t _ rfl rfl id rfl
  have k (t : State) (o : Option TrackOp) : Kept t { t with tku.op := o } := kept_tku t _ rfl
  exact (Kept.ite (fun _ => moveToKey_kept s op.slot)
    (fun _ => (moveToLast_kept s op.slot).trans (h _ op.result))).trans (k _ none)

theorem finishFrame_kept (s : State) : Kept s s.finishFrame := by
  have k (t : State) (o : Option TrackOp) : Kept t { t with tku.op := o } := kept_tku t _ rfl
  unfold State.finishFrame; split
  · exact Kept.refl _
  · exact Kept.ite (fun _ => closeFrame_kept s _) (fun _ => k _ _)

theorem addKey_kept (s : State) (r : KeyRecord) : Kept s (s.addKey r) :=
  kept_swc s _ (by rfl) (.inr (.inr (by rfl))) id (fun k q h =>
    ⟨q, by rw [List.getElem?_append_left (List.getElem?_eq_some_iff.mp h).1]; exact h,
      KeyRecord.SameTaking.rfl' q⟩)

theorem notifyKey_kept (s : State) (r : KeyRecord) : Kept s (s.notifyKey r) :=
  (notify_kept s _).trans (kept_swc_plain _ _ (by rfl) (by rfl) (fun _ => Nat.zero_le _) (by rfl))

theorem startSeam_kept (s : State) : Kept s s.startSeam := by
  unfold State.startSeam; split
  · exact kept_smu s _ id
  · exact Kept.refl _

/-- 06 R106: with a place free a job enters the seam job queue. -/
theorem queueSeam_kept (s : State) (j : SeamJob) (h : s.smu.queue.length < 2) : Kept s (s.queueSeam j) :=
  (kept_smu s { s.smu with queue := s.smu.queue ++ [j] }
    (fun _ => by simp only [List.length_append, List.length_singleton]; omega)).trans (startSeam_kept _)

theorem applyPending_kept (s : State) : Kept s s.applyPending := by
  unfold State.applyPending; split
  · exact Kept.refl _
  · exact kept_swc_plain s _ (by rfl) (by rfl) id (by rfl)

theorem takeKeyZero_kept (s : State) (i : Fin 8) (m : Nat) (l : LockState) :
    Kept s (s.takeKeyZero i m l) := by
  have h := (addKey_kept s (s.keyZeroRecord i m l)).trans (askSelection_kept _ .leading i)
  have k (t : State) (r : KeyRecord) : Kept t (t.applyPending.notifyKey r) :=
    (applyPending_kept t).trans (notifyKey_kept _ _)
  unfold State.takeKeyZero; dsimp only
  split
  · exact (h.trans (askSelection_kept _ _ _)).trans (k _ _)
  · exact h.trans (k _ _)

/-- 04 R71: the resources of a key include a seam job place. -/
theorem keyResources_room {s : State} (h : s.keyResources = true) : s.smu.queue.length < 2 :=
  (of_decide_eq_true h).1

theorem recordKey_kept (s : State) (r : KeyRecord) (h : s.smu.queue.length < 2) :
    Kept s (s.recordKey r) :=
  ((addKey_kept s r).trans (queueSeam_kept _ _ h)).trans (notifyKey_kept _ _)

theorem windowStep_kept (s : State) (op : TrackOp) (r : FrameResult) : Kept s (s.windowStep op r) := by
  unfold State.windowStep; dsimp only; split
  · split
    · exact ((kept_cvm_plain s { s.cvm with closureRun := 0 } (by rfl) (by rfl) (by rfl) (by rfl)).trans
        (enterState_kept _ .closing (.inl rfl))).trans (finishFrame_kept _)
    · split
      · exact (((endSweep_kept s _).trans (kept_cvm_plain _ _ (by rfl) (by rfl) (by rfl) (by rfl))).trans
          (notify_kept _ _)).trans (finishFrame_kept _)
      · exact finishFrame_kept _
  · exact finishFrame_kept _

theorem stallStep_kept (s : State) (op : TrackOp) (r : FrameResult) : Kept s (s.stallStep op r) := by
  have h (n : Nat) (o : Option Int) : Kept s { s with swc.stallCount := n, swc.highWater := o } :=
    kept_swc_plain s _ rfl rfl id rfl
  unfold State.stallStep; dsimp only; split
  · refine Kept.trans ?_ (windowStep_kept _ _ _)
    exact h _ _
  · split
    · refine Kept.trans ?_ (setStage_kept _ _)
      exact h _ _
    · refine Kept.trans ?_ (windowStep_kept _ _ _)
      exact h _ _

theorem paceStep_kept (s : State) (op : TrackOp) (r : FrameResult) : Kept s (s.paceStep op r) := by
  have h (x : Pace) : Kept s { s with swc.pace := x } := kept_swc_plain s _ rfl rfl id rfl
  unfold State.paceStep; dsimp only; split
  · refine Kept.trans ?_ (stallStep_kept _ _ _)
    exact h _
  · split
    · exact setStage_kept _ _
    · refine Kept.trans ?_ (stallStep_kept _ _ _)
      exact h _

theorem takeTracked_kept (s : State) (op : TrackOp) (r : FrameResult) (k : KeyKind)
    (h : s.smu.queue.length < 2) : Kept s (s.takeTracked op r k) := by
  have h0 := recordKey_kept s (s.keyRecordOf op.slot op.position r k) h
  have h1 (t : State) (b : Bool) : Kept t { t with swc.closurePending := b } :=
    kept_swc_plain t _ rfl rfl id rfl
  unfold State.takeTracked; dsimp only; split
  · refine Kept.trans (Kept.trans ?_ (endSweep_kept _ _)) (finishFrame_kept _)
    exact h0.trans (h1 _ _)
  · split
    · have h2 := ((h0.trans (askSelection_kept _ .leading op.slot)).trans (rebase_kept _ r)).trans
        (applyPending_kept _)
      split
      · exact h2.trans (setStage_kept _ _)
      · exact h2.trans (paceStep_kept _ _ _)
    · exact h0.trans (finishFrame_kept _)

theorem takeOrWait_kept (s : State) (op : TrackOp) (r : FrameResult) (k : KeyKind) :
    Kept s (s.takeOrWait op r k) :=
  Kept.ite (fun h => takeTracked_kept _ _ _ _ (keyResources_room h)) (fun _ => setStage_kept _ _)

theorem judgeKey_kept (s : State) (op : TrackOp) (r : FrameResult) : Kept s (s.judgeKey op r) := by
  have h (c : EndCause) : Kept s (s.endSweep c).finishFrame :=
    (endSweep_kept s c).trans (finishFrame_kept _)
  unfold State.judgeKey; dsimp only
  split
  · exact h _
  · split
    · exact h _
    · split
      · exact paceStep_kept _ _ _
      · split
        · exact h _
        · exact takeOrWait_kept _ _ _ _

theorem setClosureRun_kept (s : State) (n : Nat) : Kept s (s.setClosureRun n) :=
  kept_cvm_plain s _ (by rfl) (by rfl) (by rfl) (by rfl)

theorem keyDecision_kept (s : State) (op : TrackOp) (r : FrameResult) : Kept s (s.keyDecision op r) := by
  have h (n : Nat) : Kept s ((s.setClosureRun n).judgeKey op r) :=
    (setClosureRun_kept s n).trans (judgeKey_kept _ _ _)
  unfold State.keyDecision; split
  · split
    · split
      · split
        · exact setStage_kept _ _
        · exact h _
      · exact h _
    · exact h _
  · exact judgeKey_kept _ _ _

theorem countFrame_kept (s : State) (r : FrameResult) : Kept s (s.countFrame r) :=
  kept_swc_plain s _ (by rfl) (by rfl) (fun _ => addHold_le _ _) (by rfl)

theorem takeFirstFrame_kept (s : State) (op : TrackOp) (r : FrameResult) :
    Kept s (s.takeFirstFrame op r) := by
  have h (t : State) (o : Option Int) : Kept t { t with swc.highWater := o } :=
    kept_swc_plain t _ rfl rfl id rfl
  unfold State.takeFirstFrame; dsimp only
  refine Kept.trans ?_ (finishFrame_kept _)
  exact ((takeKeyZero_kept s op.slot r.m r.lock).trans (rebase_kept _ r)).trans (h _ _)

theorem takeProvisional_kept (s : State) (op : TrackOp) (r : FrameResult) :
    Kept s (s.takeProvisional op r) :=
  ((askSelection_kept s .calibration op.slot).trans (rebase_kept _ r)).trans (kept_swc_plain _ _ (by rfl) (by rfl) id (by rfl))

theorem judgeCalibration_kept (s : State) (r : FrameResult) : Kept s (s.judgeCalibration r) := by
  have h (x : Calibration) : Kept s { s with swc.cal := x } := kept_swc_plain s _ rfl rfl id rfl
  unfold State.judgeCalibration; dsimp only
  split
  · refine Kept.trans ?_ (setStage_kept _ _)
    exact h _
  · split
    · refine Kept.trans ?_ (setStage_kept _ _)
      exact h _
    · split
      · refine Kept.trans ?_ (setStage_kept _ _)
        exact h _
      · refine Kept.trans ?_ (finishFrame_kept _)
        exact h _

theorem calibrate_kept (s : State) (op : TrackOp) (r : FrameResult) : Kept s (s.calibrate op r) := by
  have h (b : Bool) : Kept s { s with swc.gyroSinceKey := b } := kept_swc_plain s _ rfl rfl id rfl
  unfold State.calibrate; dsimp only; split
  · refine Kept.trans ?_ (finishFrame_kept _)
    refine Kept.trans ?_ (takeProvisional_kept _ _ _)
    exact h _
  · refine Kept.trans ?_ (judgeCalibration_kept _ _)
    exact h _

theorem decideFrame_kept (s : State) (r : FrameResult) : Kept s (s.decideFrame r) := by
  unfold State.decideFrame; split
  · exact Kept.refl _
  · rename_i op _
    refine (kept_tku s { s.tku with op := some { op with position := s.positionOf r } } (by rfl)).trans ?_
    dsimp only
    split
    · exact calibrate_kept _ _ _
    · exact calibrate_kept _ _ _
    · split
      · exact (countFrame_kept _ _).trans (takeFirstFrame_kept _ _ _)
      · exact (countFrame_kept _ _).trans (keyDecision_kept _ _ _)
    · exact (countFrame_kept _ _).trans (keyDecision_kept _ _ _)
    all_goals exact finishFrame_kept _

/-! ### Tracking -/

theorem notifyTrack_kept (s : State) (op : TrackOp) (b : LockState) : Kept s (s.notifyTrack op b) :=
  notify_kept _ _
theorem setLock_kept (s : State) (l : Lock) : Kept s (s.setLock l) := kept_tku s _ rfl

theorem frameResult_kept (s : State) (op : TrackOp) : Kept s (s.frameResult op) := by
  unfold State.frameResult; dsimp only
  refine Kept.trans ?_ (decideFrame_kept _ _)
  exact kept_tku s _ rfl

theorem motionStep_kept (s : State) (op : TrackOp) : Kept s (s.motionStep op) := kept_tku s _ rfl

theorem lockStep_kept (s : State) (op : TrackOp) : Kept s (s.lockStep op) := by
  have h1 (l : Lock) (t : State) : Kept t ((t.setLock l).frameResult op) :=
    (setLock_kept t l).trans (frameResult_kept _ _)
  have h2 (l : Lock) (t : State) (b : LockState) :
      Kept t (((t.setLock l).notifyTrack op b).frameResult op) :=
    ((setLock_kept t l).trans (notifyTrack_kept _ _ _)).trans (frameResult_kept _ _)
  have h3 (l : Lock) (t : State) (st : TrackStage) : Kept t ((t.setLock l).setStage st) :=
    (setLock_kept t l).trans (setStage_kept _ _)
  unfold State.lockStep
  refine (kept_tku s { s.tku with op := some op } (by rfl)).trans ?_
  dsimp only
  split
  · split
    · split
      · exact h3 _ _ _
      · exact h1 _ _
    · split
      · exact h3 _ _ _
      · exact h1 _ _
    · exact frameResult_kept _ _
    · exact h2 _ _ _
  · split
    · exact h1 _ _
    · exact h1 _ _
    · exact h2 _ _ _
    · split
      · exact h3 _ _ _
      · exact h1 _ _

theorem afterMisses_kept (s : State) (op : TrackOp) : Kept s (s.afterMisses op) :=
  (motionStep_kept s op).trans (lockStep_kept _ _)

theorem formConsensus_kept (s : State) (op : TrackOp) : Kept s (s.formConsensus op).1 := by
  unfold State.formConsensus; dsimp only; split
  · split <;> exact kept_tku s _ (by rfl)
  · exact Kept.refl _

theorem beginTracking_kept (s : State) (i : Fin 8) : Kept s (s.beginTracking i) :=
  (setSlotState_kept s i .tracking (.inl (fun h => h))).trans (kept_tku _ _ (by rfl))

theorem losePatch_kept (s : State) (c : Bool) (id : Nat) : Kept s (s.losePatch c id) := by
  unfold State.losePatch; split <;> exact kept_tku s _ (by rfl)

theorem replaceSet_kept (s : State) (k : SetKind) (l : List Patch) : Kept s (s.replaceSet k l) := by
  cases k <;> exact kept_tku s _ (by rfl)

/-! ### The steps that the table lists on their own -/

theorem beginSweep_kept (s : State) (x : Int) : Kept s (s.beginSweep x) := by
  have h (o : Option Int) (y : Calibration) : Kept s { s with swc.highWater := o, swc.cal := y } :=
    kept_swc_plain s _ rfl rfl id rfl
  exact (h _ _).trans (enterState_kept _ _ (.inl rfl))

theorem decideDirection_kept (s : State) (r : FrameResult) (p : Fin 8) :
    Kept s (s.decideDirection r p) := by
  have d (o : Option Direction) : Kept s { s with swc.decided := o } := kept_swc_plain s _ rfl rfl id rfl
  have h (x : State) (n : Nat) (a : Int) :
      Kept x ((x.takeKeyZero p n r.lock).beginSweep a) :=
    (takeKeyZero_kept x _ _ _).trans (beginSweep_kept _ _)
  unfold State.decideDirection; dsimp only
  exact (d (if 0 < r.au then some .right else some .left)).trans (h _ _ _)

theorem recalibrate_kept (s : State) (op : TrackOp) (r : FrameResult) :
    Kept s (s.recalibrate op r) := by
  have h (x : State) : Kept x ((x.takeProvisional op r).enterState .recalibrating) :=
    (takeProvisional_kept x _ _).trans (enterState_kept _ _ (.inl rfl))
  unfold State.recalibrate; split
  · exact (freeSlot_kept s _).trans (h _)
  · exact h s

theorem changePace_kept (s : State) (r : FrameResult) : Kept s (s.changePace r) :=
  (notify_kept s _).trans (kept_swc_plain _ _ (by
    show _ = _; unfold State.notify; split <;> rfl) (by
    show _ = _; unfold State.notify; split <;> rfl) id rfl)

theorem endDue_kept (s : State) (d : TrackStage) (c : EndCause) : Kept s (s.endDue d c) := by
  unfold State.endDue; split
  · exact Kept.refl _
  · split
    · exact ((endSweep_kept s c).trans (finishFrame_kept _)).settled
    · exact Kept.refl _

theorem acceptClosure_kept (s : State) (r : FrameResult) (x y : Int) :
    Kept s (s.acceptClosure r x y) := by
  have h (o1 o2 : Option Int) (o3 : Option ClosureResult) :
      Kept s { s with cvm.um := o1, cvm.vres := o2, cvm.closureResult := o3 } :=
    kept_cvm_plain s _ rfl rfl rfl rfl
  have k (t : State) (z : Int) : Kept t (t.closeTable z) := kept_cvm_plain t _ rfl rfl rfl rfl
  have p (t : State) (b : Bool) : Kept t { t with swc.closurePending := b } :=
    kept_swc_plain t _ rfl rfl id rfl
  exact (((h _ _ _).trans (notify_kept _ _)).trans (k _ _)).trans (p _ _)

/-! ### Keys, seams, commits, the canvas -/

theorem takeTail_kept (s : State) (i : Fin 8) (r : FrameResult) (h : s.smu.queue.length < 2) :
    Kept s (s.takeTail i r) := by
  have k (t : State) (x : TailState) : Kept t { t with swc.tail := x } := kept_swc_plain t _ rfl rfl id rfl
  exact ((recordKey_kept s _ h).trans (moveToKey_kept _ i)).trans (k _ .made)

theorem decideTail_kept (s : State) : Kept s s.decideTail := by
  unfold State.decideTail; split
  · split
    · split
      · rename_i h; exact takeTail_kept _ _ _ (keyResources_room h)
      · exact kept_swc_plain s _ (by rfl) (by rfl) id (by rfl)
    · exact dropLast_kept _
  · exact dropLast_kept _

theorem createStrip_kept (s : State) (j : Nat) : Kept s (s.createStrip j) :=
  kept_cvm_plain s _ (by rfl) (by rfl) (by rfl) (by rfl)
theorem openPart_kept (s : State) (c : Bool) : Kept s (s.openPart c) := kept_blu s _ id

theorem forgetTransfer_kept (s : State) (j : Nat) : Kept s (s.forgetTransfer j) := by
  unfold State.forgetTransfer; split
  · exact kept_opu s _ (by rfl) (fun _ => Nat.zero_le _)
  · exact Kept.refl _

theorem countDiscarded_kept (s : State) : Kept s s.countDiscarded :=
  kept_cvm s _ (fun _ => addHold_le _ _) id id id

theorem discardStrip_kept (s : State) (r : Strip) : Kept s (s.discardStrip r) :=
  (((removeStrip_kept s _).trans (countDiscarded_kept _)).trans
    (notify_kept _ _)).trans (forgetTransfer_kept _ _)

theorem beginWait_kept (s : State) (j : Nat) (r : Strip) : Kept s (s.beginWait j r) := by
  have h : Kept s { s with blu.state := .waiting } := kept_blu s _ id
  have k (t : State) (w : Option CanvasWait) : Kept t { t with cvm.wait := w } :=
    kept_cvm_plain t _ rfl rfl rfl rfl
  exact (h.trans (k _ (some { strip := j, occupant := r.index, occupantState := r.state }))).trans
    (notify_kept _ _)

theorem endWait_kept (s : State) (j : Nat) : Kept s (s.endWait j) := by
  have k (t : State) (w : Option CanvasWait) : Kept t { t with cvm.wait := w } :=
    kept_cvm_plain t _ rfl rfl rfl rfl
  unfold State.endWait; split
  · exact Kept.refl _
  · split
    · rename_i w _ _
      exact (((createStrip_kept s w.strip).trans (k _ none)).trans (openPart_kept _ true)).trans
        (notify_kept _ _)
    · exact Kept.refl _

theorem openStrip_kept (s : State) (j : Nat) : Kept s (s.openStrip j) := by
  unfold State.openStrip; split
  · split
    · exact openPart_kept _ _
    · exact Kept.refl _
  · split
    · exact (createStrip_kept s _).trans (openPart_kept _ _)
    · split
      · exact ((discardStrip_kept s _).trans (createStrip_kept _ _)).trans (openPart_kept _ _)
      · exact beginWait_kept _ _ _

theorem finalise_kept (s : State) (p : Strip → Bool) : Kept s (s.finalise p) :=
  kept_cvm_plain s _ (by rfl) (by rfl) (by rfl) (by rfl)

theorem markLastStrip_kept (s : State) : Kept s s.markLastStrip := by
  unfold State.markLastStrip; split
  · exact Kept.refl _
  · exact updateStrip_kept _ _ _

theorem finaliseAll_kept (s : State) : Kept s s.finaliseAll :=
  (((markLastStrip_kept s).trans (finalise_kept _ _)).trans ((finalise_kept _ _).trans
    (finalise_kept _ _))).trans (kept_cvm_plain _ _ (by rfl) (by rfl) (by rfl) (by rfl))

theorem beginCommit_kept (s : State) : Kept s s.beginCommit := by
  unfold State.beginCommit; split <;> exact kept_blu s _ id

/-- 07 R122: with a place free a commit enters the queue. -/
theorem enterCommit_kept (s : State) (c : Commit) (h : s.blu.queue.length < 2) :
    Kept s (s.enterCommit c) := by
  have k := kept_blu s { s.blu with queue := s.blu.queue ++ [c]
                                    entered := s.blu.entered + (if c.kind = .ordinary then 1 else 0)
                                    finalEntered := s.blu.finalEntered || decide (c.kind ≠ .ordinary) }
    (fun _ => by simp only [List.length_append, List.length_singleton]; omega)
  unfold State.enterCommit; dsimp only; split
  · exact k.trans (beginCommit_kept _)
  · exact k

theorem commitKeys_kept (s : State) (c : Commit) : Kept s (s.commitKeys c) := by
  have h := updateKey_kept s c.key (fun r => { r with state := .committed })
    (fun r => ⟨rfl, rfl, rfl, rfl, rfl, rfl, rfl, rfl⟩)
  unfold State.commitKeys; dsimp only
  split
  · split
    · exact h
    · exact h.trans (releaseKey_kept _ _)
    · exact h.trans (releaseKey_kept _ _)
  · split
    · exact h.trans (releaseKey_kept _ _)
    · exact (h.trans (releaseKey_kept _ _)).trans (releaseKey_kept _ _)
    · exact (h.trans (releaseKey_kept _ _)).trans (releaseKey_kept _ _)

theorem moveFrontier_kept (s : State) (c : Commit) (x : Int) : Kept s (s.moveFrontier c x) := by
  have h := kept_blu s { s.blu with frontier := x } id
  unfold State.moveFrontier; dsimp only; split
  · exact h.trans (finalise_kept _ _)
  · exact h.trans (finaliseAll_kept _)
  · exact h.trans (finaliseAll_kept _)

/-- 07 R134: the commit at the head of the queue completes. -/
theorem completeCommit_kept (s : State) (c : Commit) (rest : List Commit) (x : Int)
    (h : s.blu.queue = c :: rest) : Kept s (s.completeCommit c rest x) := by
  have k := (commitKeys_kept s c).trans (moveFrontier_kept _ c x)
  have e : (s.commitKeys c).blu = s.blu := (commitKeys_frame s c).blu (by decide)
  have e2 : ((s.commitKeys c).moveFrontier c x).blu.queue = s.blu.queue := by
    rw [← e]
    unfold State.moveFrontier; dsimp only
    split
    · rw [(finaliseBelow_frame _).blu (by decide)]
    · rw [(finaliseAll_frame _).blu (by decide)]
    · rw [(finaliseAll_frame _).blu (by decide)]
  refine (k.trans (kept_blu _ _ (fun hq => ?_))).trans (beginCommit_kept _)
  rw [e2, h] at hq
  exact Nat.le_of_succ_le hq

theorem writeJob_kept (s : State) (l : List Nat) (j : SeamJob) : Kept s (s.writeJob l j) := by
  cases j
  · refine Kept.trans (updateKey_kept s _ _ ?_) (updateKey_kept _ _ _ ?_)
    all_goals exact fun r => ⟨rfl, rfl, rfl, rfl, rfl, rfl, rfl, rfl⟩
  · refine Kept.trans (updateKey_kept s _ _ ?_) (updateKey_kept _ _ _ ?_)
    all_goals exact fun r => ⟨rfl, rfl, rfl, rfl, rfl, rfl, rfl, rfl⟩

/-- 06 R118: the job at the head leaves; at most one job takes its place. -/
theorem leaveSeam_kept (s : State) (j : SeamJob) (rest : List SeamJob) (h : s.smu.queue = j :: rest) :
    Kept s (s.leaveSeam j rest) := by
  unfold State.leaveSeam
  refine Kept.trans (kept_smu s _ (fun hq => ?_)) (startSeam_kept _)
  rw [h, List.length_cons] at hq
  dsimp only
  rw [List.length_append]
  split
  · split <;> simp <;> omega
  · simp; omega

theorem handCommit_kept (s : State) (j : SeamJob) (rest : List SeamJob) (h : s.smu.queue = j :: rest)
    (hr : s.blu.queue.length < 2) : Kept s (s.handCommit j rest) := by
  refine (enterCommit_kept s _ hr).trans (leaveSeam_kept _ _ _ ?_)
  rw [(enterCommit_frame s _).smu (by decide)]; exact h

/-! ### Buffer memory and output -/

theorem noteRead_kept (s : State) (who : Requester) (w : Nat) (f : Bool) :
    Kept s (s.noteRead who w f) := by
  cases who
  · exact kept_igu s _ (fun _ h => .inr h) (fun j r h => ⟨j, r, h, rfl⟩) id id
  · exact kept_tku s _ (by rfl)
  · exact kept_smu s _ id
  · exact kept_blu s _ id
  · exact kept_opu s _ (by rfl) id

theorem noteWrite_kept (s : State) (who : Requester) (w : WordWrite) (f : Bool) :
    Kept s (s.noteWrite who w f) := by
  have h (l : List LineBuffer) : Kept s { s with igu.lineBuffers := l } :=
    kept_igu s _ (fun _ h => .inr h) (fun j r h => ⟨j, r, h, rfl⟩) id id
  have k (p : Option Prep) : Kept s { s with igu.prep := p } :=
    kept_igu s _ (fun _ h => .inr h) (fun j r h => ⟨j, r, h, rfl⟩) id id
  have b (x : Option CommitRun) : Kept s { s with blu.run := x } := kept_blu s _ id
  cases who
  · exact Kept.ite (fun _ => h _) (fun _ => k _)
  · exact Kept.refl _
  · exact Kept.refl _
  · unfold State.noteWrite; dsimp only; split
    · split
      · refine Kept.trans ?_ (updateStrip_kept _ _ _)
        exact b _
      · exact Kept.refl _
    · exact Kept.refl _
  · exact Kept.refl _

theorem storeWord_kept (s : State) (w : WordWrite) (f : Bool) : Kept s (s.storeWord w f) :=
  (kept_mem s (writeBytes s.mem w.addr w.bytes)).trans (kept_ecc _ _)

theorem completeAccess_kept (s : State) (g : Grant) (o : EccOutcome) : Kept s (s.completeAccess g o) := by
  have e (x : State) (p : Prop) [Decidable p] : Kept x (if p then x.noteEccError else x) :=
    Kept.ite (fun _ => noteEccError_kept x) (fun _ => Kept.refl _)
  unfold State.completeAccess; split
  · exact ((kept_ecc s _).trans (e _ _)).trans
      (Kept.ite (fun _ => noteRead_kept _ _ _ _) (fun _ => Kept.refl _))
  · exact ((storeWord_kept s _ _).trans (e _ _)).trans
      (Kept.ite (fun _ => noteWrite_kept _ _ _ _) (fun _ => Kept.refl _))

/-- The pins and OPU changed together, in a pair of levels and states that fit. -/
theorem kept_port (s : State) (p : Pins) (x : Opu)
    (h : (p.sopFv = true ↔ x.state = .sending ∨ x.state = .cutting)
      ∧ (x.state = .idle ∨ x.state = .halted → p.sopLv = false) ∧ p.sopBeat ≤ p.sopLine.length)
    (hn : s.opu.number ≤ 65535 → x.number ≤ 65535) : Kept s { s with pins := p, opu := x } where
  gyro := id
  counts := fun k => by
    obtain ⟨h1, h2, h3, h4, h5, h6, h7, h8, h9, h10⟩ := k
    exact ⟨h1, h2, h3, h4, h5, h6, h7, h8, h9, hn h10⟩
  ports := fun _ => h
  ring := id
  sameId := rfl
  flags := EventFlags.Within.rfl' _
  keys := keys_same rfl
  link := ⟨rfl, rfl, rfl⟩
  notices := id

theorem startTransfer_kept (s : State) (r : Strip) : Kept s (s.startTransfer r) :=
  (updateStrip_kept s r.index (fun q => { q with state := .sending })).trans
    (kept_port _ _ _ ⟨⟨fun _ => .inl rfl, fun _ => rfl⟩, 
      fun (h : OpuState.sending = .idle ∨ OpuState.sending = .halted) => h.elim (fun k => nomatch k) (fun k => nomatch k),
      Nat.zero_le _⟩ (fun _ => addHold_le _ _))

theorem core_pins (s : State) (x : Pins) : KeptCore s { s with pins := x } :=
  { KeptCore.refl s with }

theorem core_opu (s : State) (x : Opu) (hn : s.opu.number ≤ 65535 → x.number ≤ 65535) :
    KeptCore s { s with opu := x } :=
  { KeptCore.refl s with
    counts := fun k => by
      obtain ⟨h1, h2, h3, h4, h5, h6, h7, h8, h9, h10⟩ := k
      exact ⟨h1, h2, h3, h4, h5, h6, h7, h8, h9, hn h10⟩ }

/-- 09 R153: OPU IDLE or HALTED and both levels low. -/
theorem ports_low {t : State} (h : t.opu.state = .idle ∨ t.opu.state = .halted)
    (hf : t.pins.sopFv = false) (hl : t.pins.sopLv = false)
    (hb : t.pins.sopBeat ≤ t.pins.sopLine.length) : t.PortLevels := by
  refine ⟨⟨fun k => ?_, fun k => ?_⟩, fun _ => hl, hb⟩
  · rw [hf] at k; cases k
  · rcases h with h | h <;> rw [h] at k <;> rcases k with k | k <;> cases k

theorem core_clearTransfer (s : State) : KeptCore s s.clearTransfer := core_opu s _ (fun _ => Nat.zero_le _)
theorem core_setOpuState (s : State) (st : OpuState) : KeptCore s (s.setOpuState st) := core_opu s _ id

theorem countSent_kept (s : State) : Kept s s.countSent :=
  kept_cvm s _ id id (fun _ => addHold_le _ _) id
theorem countSkipped_kept (s : State) : Kept s s.countSkipped :=
  kept_cvm s _ id (fun _ => addHold_le _ _) id id
theorem notifyStrip_kept (s : State) (id : Nat) (r : Strip) (st : StripStatus) (n : Nat) :
    Kept s (s.notifyStrip id r st n) := notify_kept _ _

theorem transferClean_kept (s : State) (x : Transfer) (r : Strip) : Kept s (s.transferClean x r) := by
  have f := transferClean_frame s x r
  have k1 : KeptCore s ((((s.presentTrailer (s.trailerRecord x) 0).removeStrip r.index).countSent).notifyStrip
      x.session r .sent s.opu.number) :=
    ((((core_pins s _).trans (removeStrip_kept (s.presentTrailer (s.trailerRecord x) 0) _).toKeptCore).trans
      (countSent_kept _).toKeptCore).trans (notifyStrip_kept _ _ _ _ _).toKeptCore)
  have k2 := ((k1.trans (core_clearTransfer _)).trans (core_setOpuState _ .idle)).trans
    (endWait_kept _ r.index).toKeptCore
  refine Kept.ofCore k2 (fun _ => ?_) (f.igu (by decide)) (f.swc (by decide))
  have p : (s.transferClean x r).pins = (s.presentTrailer (s.trailerRecord x) 0).pins := by
    unfold State.transferClean; dsimp only
    exact ((((((removeStrip_frame _ _).comp (countSent_frame _) (n := [.cvm]) (by decide)).comp
      (notifyStrip_frame _ _ _ _ _) (n := [.cvm, .lku]) (by decide)).comp (clearTransfer_frame _)
      (n := [.cvm, .lku, .opu]) (by decide)).comp (setOpuState_frame _ _) (n := [.cvm, .lku, .opu])
      (by decide)).comp (endWait_frame _ _) (n := [.blu, .cvm, .lku, .opu]) (by decide)).pins (by decide)
  have o : (s.transferClean x r).opu.state = .idle := by
    unfold State.transferClean; dsimp only
    rw [(endWait_frame _ _).opu (by decide)]; rfl
  exact ports_low (.inl o) (by rw [p]; rfl) (by rw [p]; rfl) (by rw [p]; exact Nat.le_refl _)

theorem transferFailed_kept (s : State) (x : Transfer) (r : Strip) : Kept s (s.transferFailed x r) := by
  have f := transferFailed_frame s x r
  have k1 := (((((core_pins s _).trans
    (updateStrip_kept (s.presentTrailer (s.trailerRecord x) 1) r.index
      (fun q => { q with state := .final, error := true })).toKeptCore).trans
    (core_setOpuState _ .halted)).trans (setOutputHalted_kept _ true).toKeptCore).trans
    (notifyStrip_kept _ x.session r .memoryError s.opu.number).toKeptCore)
  refine Kept.ofCore k1 (fun _ => ?_) (f.igu (by decide)) (f.swc (by decide))
  have g (t : State) : SameOutside [.lku] t ((t.setOutputHalted true).notifyStrip x.session r
      .memoryError s.opu.number) :=
    (setOutputHalted_frame _ _).comp (notifyStrip_frame _ _ _ _ _) (by decide)
  refine ports_low (.inr ?_) ?_ ?_ ?_
  all_goals unfold State.transferFailed; dsimp only
  · rw [(g _).opu (by decide)]; rfl
  · rw [(g _).pins (by decide)]; rfl
  · rw [(g _).pins (by decide)]; rfl
  · rw [(g _).pins (by decide)]; exact Nat.le_refl _

/-! ### A tick of the strip output port (09 R155, R156) -/

theorem presentBeat_ports (s : State) (h : s.PortLevels) : s.presentBeat.PortLevels := by
  unfold State.presentBeat
  split
  · rename_i hb; exact ⟨h.1, h.2.1, Nat.le_of_lt hb⟩
  · split
    · exact h
    · exact ⟨h.1, fun _ => rfl, Nat.le_refl _⟩

theorem beginTrailer_ports (s : State) (x : Transfer) (n : Nat) (h : s.PortLevels)
    (hs : s.opu.state = .sending ∨ s.opu.state = .cutting) : (s.beginTrailer x n).PortLevels := by
  refine ⟨h.1, fun k => ?_, Nat.zero_le _⟩
  rcases hs with e | e <;> rcases k with k | k <;> exact absurd (e.symm.trans k) (by decide)

theorem tick_ports (s : State) (h : s.PortLevels) : s.tick.PortLevels := by
  unfold State.tick
  split
  · split
    · exact presentBeat_ports s h
    · split
      · rename_i e _
        split
        · exact beginTrailer_ports s _ _ h (.inl e)
        · exact h
      · rename_i e _; exact beginTrailer_ports s _ _ h (.inr e)
      · exact h
  · exact h

theorem tick_number (s : State) : s.tick.opu.number = s.opu.number := by
  unfold State.tick State.presentBeat
  repeat' split
  all_goals rfl

/-- A tick keeps what every operation keeps. -/
theorem tick_kept (s : State) : Kept s s.tick := by
  have f := tick_frame s
  have e : s.tick = { s with pins := s.tick.pins, opu := s.tick.opu } := by
    unfold State.tick State.presentBeat
    repeat' split
    all_goals rfl
  refine Kept.ofCore ?_ (tick_ports s) (f.igu (by decide)) (f.swc (by decide))
  rw [e]
  exact (core_pins s _).trans (core_opu _ _ (fun h => (tick_number s).symm ▸ h))

/-- 09 R159: the end of a halt. -/
theorem endHalt_core (s : State) : KeptCore s s.endHalt :=
  (core_setOpuState s .idle).trans (setOutputHalted_kept _ false).toKeptCore

/-- OPU moved between IDLE and HALTED keeps the levels. -/
theorem ports_rest {s t : State} (hs : s.opu.state = .halted) (ht : t.opu.state = .idle)
    (hp : t.pins = s.pins) (h : s.PortLevels) : t.PortLevels := by
  refine ports_low (.inl ht) ?_ (by rw [hp]; exact h.2.1 (.inr hs)) (by rw [hp]; exact h.2.2)
  rw [hp]
  cases e : s.pins.sopFv
  · rfl
  · have := h.1.mp e
    rw [hs] at this; rcases this with k | k <;> cases k

theorem endHalt_kept (s : State) (hs : s.opu.state = .halted) : Kept s s.endHalt :=
  Kept.ofCore (endHalt_core s) (ports_rest hs rfl rfl) rfl rfl

theorem retryStrip_kept (s : State) (r : Strip) (hs : s.opu.state = .halted) :
    Kept s (s.retryStrip r) :=
  (updateStrip_kept s _ _).trans (endHalt_kept _ hs)

theorem skipStrip_kept (s : State) (r : Strip) (hs : s.opu.state = .halted) : Kept s (s.skipStrip r) := by
  have f := skipStrip_frame s r
  have k1 : KeptCore s (((s.removeStrip r.index).countSkipped).notifyStrip s.swc.id r .skipped
      s.opu.number) :=
    (((removeStrip_kept s _).trans (countSkipped_kept _)).trans (notifyStrip_kept _ _ _ _ _)).toKeptCore
  refine Kept.ofCore (((k1.trans (core_clearTransfer _)).trans (endHalt_core _)).trans
    (endWait_kept _ r.index).toKeptCore) (ports_rest hs ?_ (f.pins (by decide)))
    (f.igu (by decide)) (f.swc (by decide))
  unfold State.skipStrip; dsimp only
  rw [(endWait_frame _ _).opu (by decide)]; rfl

end Sys2Proof.Machine
end

