-- ==== Sys2Proof/Laws/State.lean ====
section
/-! SUPPORT. What each record update of the shared operations leaves in each block of State: one lemma per block and operation, true by definition, so that no proof unfolds an update. -/
namespace Sys2Proof.Machine

/-! ### State.noteLinkError -/

@[simp] theorem State.noteLinkError_pins (s : State) : (s.noteLinkError).pins = s.pins := rfl
@[simp] theorem State.noteLinkError_igu (s : State) : (s.noteLinkError).igu = s.igu := rfl
@[simp] theorem State.noteLinkError_tku (s : State) : (s.noteLinkError).tku = s.tku := rfl
@[simp] theorem State.noteLinkError_swc (s : State) : (s.noteLinkError).swc = s.swc := rfl
@[simp] theorem State.noteLinkError_smu (s : State) : (s.noteLinkError).smu = s.smu := rfl
@[simp] theorem State.noteLinkError_blu (s : State) : (s.noteLinkError).blu = s.blu := rfl
@[simp] theorem State.noteLinkError_cvm (s : State) : (s.noteLinkError).cvm = s.cvm := rfl
@[simp] theorem State.noteLinkError_opu (s : State) : (s.noteLinkError).opu = s.opu := rfl
@[simp] theorem State.noteLinkError_grant (s : State) : (s.noteLinkError).grant = s.grant := rfl
@[simp] theorem State.noteLinkError_mem (s : State) : (s.noteLinkError).mem = s.mem := rfl
@[simp] theorem State.noteLinkError_ecc (s : State) : (s.noteLinkError).ecc = s.ecc := rfl
@[simp] theorem State.noteLinkError_lku (s : State) : (s.noteLinkError).lku = { s.lku with flags.linkError := true } := rfl
@[simp] theorem State.noteLinkError_psc (s : State) : (s.noteLinkError).psc = s.psc := rfl
@[simp] theorem State.noteLinkError_free (s : State) : (s.noteLinkError).free = s.free := rfl
@[simp] theorem State.noteLinkError_pending (s : State) : (s.noteLinkError).pending = s.pending := rfl

/-! ### State.noteRequestLost -/

@[simp] theorem State.noteRequestLost_pins (s : State) : (s.noteRequestLost).pins = s.pins := rfl
@[simp] theorem State.noteRequestLost_igu (s : State) : (s.noteRequestLost).igu = s.igu := rfl
@[simp] theorem State.noteRequestLost_tku (s : State) : (s.noteRequestLost).tku = s.tku := rfl
@[simp] theorem State.noteRequestLost_swc (s : State) : (s.noteRequestLost).swc = s.swc := rfl
@[simp] theorem State.noteRequestLost_smu (s : State) : (s.noteRequestLost).smu = s.smu := rfl
@[simp] theorem State.noteRequestLost_blu (s : State) : (s.noteRequestLost).blu = s.blu := rfl
@[simp] theorem State.noteRequestLost_cvm (s : State) : (s.noteRequestLost).cvm = s.cvm := rfl
@[simp] theorem State.noteRequestLost_opu (s : State) : (s.noteRequestLost).opu = s.opu := rfl
@[simp] theorem State.noteRequestLost_grant (s : State) : (s.noteRequestLost).grant = s.grant := rfl
@[simp] theorem State.noteRequestLost_mem (s : State) : (s.noteRequestLost).mem = s.mem := rfl
@[simp] theorem State.noteRequestLost_ecc (s : State) : (s.noteRequestLost).ecc = s.ecc := rfl
@[simp] theorem State.noteRequestLost_lku (s : State) : (s.noteRequestLost).lku = { s.lku with flags.requestLost := true } := rfl
@[simp] theorem State.noteRequestLost_psc (s : State) : (s.noteRequestLost).psc = s.psc := rfl
@[simp] theorem State.noteRequestLost_free (s : State) : (s.noteRequestLost).free = s.free := rfl
@[simp] theorem State.noteRequestLost_pending (s : State) : (s.noteRequestLost).pending = s.pending := rfl

/-! ### State.noteFrameDropped -/

@[simp] theorem State.noteFrameDropped_pins (s : State) : (s.noteFrameDropped).pins = s.pins := rfl
@[simp] theorem State.noteFrameDropped_igu (s : State) : (s.noteFrameDropped).igu = s.igu := rfl
@[simp] theorem State.noteFrameDropped_tku (s : State) : (s.noteFrameDropped).tku = s.tku := rfl
@[simp] theorem State.noteFrameDropped_swc (s : State) : (s.noteFrameDropped).swc = s.swc := rfl
@[simp] theorem State.noteFrameDropped_smu (s : State) : (s.noteFrameDropped).smu = s.smu := rfl
@[simp] theorem State.noteFrameDropped_blu (s : State) : (s.noteFrameDropped).blu = s.blu := rfl
@[simp] theorem State.noteFrameDropped_cvm (s : State) : (s.noteFrameDropped).cvm = s.cvm := rfl
@[simp] theorem State.noteFrameDropped_opu (s : State) : (s.noteFrameDropped).opu = s.opu := rfl
@[simp] theorem State.noteFrameDropped_grant (s : State) : (s.noteFrameDropped).grant = s.grant := rfl
@[simp] theorem State.noteFrameDropped_mem (s : State) : (s.noteFrameDropped).mem = s.mem := rfl
@[simp] theorem State.noteFrameDropped_ecc (s : State) : (s.noteFrameDropped).ecc = s.ecc := rfl
@[simp] theorem State.noteFrameDropped_lku (s : State) : (s.noteFrameDropped).lku = { s.lku with flags.frameDropped := true } := rfl
@[simp] theorem State.noteFrameDropped_psc (s : State) : (s.noteFrameDropped).psc = s.psc := rfl
@[simp] theorem State.noteFrameDropped_free (s : State) : (s.noteFrameDropped).free = s.free := rfl
@[simp] theorem State.noteFrameDropped_pending (s : State) : (s.noteFrameDropped).pending = s.pending := rfl

/-! ### State.noteEccError -/

@[simp] theorem State.noteEccError_pins (s : State) : (s.noteEccError).pins = s.pins := rfl
@[simp] theorem State.noteEccError_igu (s : State) : (s.noteEccError).igu = s.igu := rfl
@[simp] theorem State.noteEccError_tku (s : State) : (s.noteEccError).tku = s.tku := rfl
@[simp] theorem State.noteEccError_swc (s : State) : (s.noteEccError).swc = s.swc := rfl
@[simp] theorem State.noteEccError_smu (s : State) : (s.noteEccError).smu = s.smu := rfl
@[simp] theorem State.noteEccError_blu (s : State) : (s.noteEccError).blu = s.blu := rfl
@[simp] theorem State.noteEccError_cvm (s : State) : (s.noteEccError).cvm = s.cvm := rfl
@[simp] theorem State.noteEccError_opu (s : State) : (s.noteEccError).opu = s.opu := rfl
@[simp] theorem State.noteEccError_grant (s : State) : (s.noteEccError).grant = s.grant := rfl
@[simp] theorem State.noteEccError_mem (s : State) : (s.noteEccError).mem = s.mem := rfl
@[simp] theorem State.noteEccError_ecc (s : State) : (s.noteEccError).ecc = s.ecc := rfl
@[simp] theorem State.noteEccError_lku (s : State) : (s.noteEccError).lku = { s.lku with flags.eccError := true } := rfl
@[simp] theorem State.noteEccError_psc (s : State) : (s.noteEccError).psc = s.psc := rfl
@[simp] theorem State.noteEccError_free (s : State) : (s.noteEccError).free = s.free := rfl
@[simp] theorem State.noteEccError_pending (s : State) : (s.noteEccError).pending = s.pending := rfl

/-! ### State.clearEventFlags -/

@[simp] theorem State.clearEventFlags_pins (s : State) : (s.clearEventFlags).pins = s.pins := rfl
@[simp] theorem State.clearEventFlags_igu (s : State) : (s.clearEventFlags).igu = s.igu := rfl
@[simp] theorem State.clearEventFlags_tku (s : State) : (s.clearEventFlags).tku = s.tku := rfl
@[simp] theorem State.clearEventFlags_swc (s : State) : (s.clearEventFlags).swc = s.swc := rfl
@[simp] theorem State.clearEventFlags_smu (s : State) : (s.clearEventFlags).smu = s.smu := rfl
@[simp] theorem State.clearEventFlags_blu (s : State) : (s.clearEventFlags).blu = s.blu := rfl
@[simp] theorem State.clearEventFlags_cvm (s : State) : (s.clearEventFlags).cvm = s.cvm := rfl
@[simp] theorem State.clearEventFlags_opu (s : State) : (s.clearEventFlags).opu = s.opu := rfl
@[simp] theorem State.clearEventFlags_grant (s : State) : (s.clearEventFlags).grant = s.grant := rfl
@[simp] theorem State.clearEventFlags_mem (s : State) : (s.clearEventFlags).mem = s.mem := rfl
@[simp] theorem State.clearEventFlags_ecc (s : State) : (s.clearEventFlags).ecc = s.ecc := rfl
@[simp] theorem State.clearEventFlags_lku (s : State) : (s.clearEventFlags).lku = { s.lku with flags := {} } := rfl
@[simp] theorem State.clearEventFlags_psc (s : State) : (s.clearEventFlags).psc = s.psc := rfl
@[simp] theorem State.clearEventFlags_free (s : State) : (s.clearEventFlags).free = s.free := rfl
@[simp] theorem State.clearEventFlags_pending (s : State) : (s.clearEventFlags).pending = s.pending := rfl

/-! ### State.setOutputHalted -/

@[simp] theorem State.setOutputHalted_pins (s : State) (b : Bool) : (s.setOutputHalted b).pins = s.pins := rfl
@[simp] theorem State.setOutputHalted_igu (s : State) (b : Bool) : (s.setOutputHalted b).igu = s.igu := rfl
@[simp] theorem State.setOutputHalted_tku (s : State) (b : Bool) : (s.setOutputHalted b).tku = s.tku := rfl
@[simp] theorem State.setOutputHalted_swc (s : State) (b : Bool) : (s.setOutputHalted b).swc = s.swc := rfl
@[simp] theorem State.setOutputHalted_smu (s : State) (b : Bool) : (s.setOutputHalted b).smu = s.smu := rfl
@[simp] theorem State.setOutputHalted_blu (s : State) (b : Bool) : (s.setOutputHalted b).blu = s.blu := rfl
@[simp] theorem State.setOutputHalted_cvm (s : State) (b : Bool) : (s.setOutputHalted b).cvm = s.cvm := rfl
@[simp] theorem State.setOutputHalted_opu (s : State) (b : Bool) : (s.setOutputHalted b).opu = s.opu := rfl
@[simp] theorem State.setOutputHalted_grant (s : State) (b : Bool) : (s.setOutputHalted b).grant = s.grant := rfl
@[simp] theorem State.setOutputHalted_mem (s : State) (b : Bool) : (s.setOutputHalted b).mem = s.mem := rfl
@[simp] theorem State.setOutputHalted_ecc (s : State) (b : Bool) : (s.setOutputHalted b).ecc = s.ecc := rfl
@[simp] theorem State.setOutputHalted_lku (s : State) (b : Bool) : (s.setOutputHalted b).lku = { s.lku with conds.outputHalted := b } := rfl
@[simp] theorem State.setOutputHalted_psc (s : State) (b : Bool) : (s.setOutputHalted b).psc = s.psc := rfl
@[simp] theorem State.setOutputHalted_free (s : State) (b : Bool) : (s.setOutputHalted b).free = s.free := rfl
@[simp] theorem State.setOutputHalted_pending (s : State) (b : Bool) : (s.setOutputHalted b).pending = s.pending := rfl

/-! ### State.setProfileBad -/

@[simp] theorem State.setProfileBad_pins (s : State) (b : Bool) : (s.setProfileBad b).pins = s.pins := rfl
@[simp] theorem State.setProfileBad_igu (s : State) (b : Bool) : (s.setProfileBad b).igu = s.igu := rfl
@[simp] theorem State.setProfileBad_tku (s : State) (b : Bool) : (s.setProfileBad b).tku = s.tku := rfl
@[simp] theorem State.setProfileBad_swc (s : State) (b : Bool) : (s.setProfileBad b).swc = s.swc := rfl
@[simp] theorem State.setProfileBad_smu (s : State) (b : Bool) : (s.setProfileBad b).smu = s.smu := rfl
@[simp] theorem State.setProfileBad_blu (s : State) (b : Bool) : (s.setProfileBad b).blu = s.blu := rfl
@[simp] theorem State.setProfileBad_cvm (s : State) (b : Bool) : (s.setProfileBad b).cvm = s.cvm := rfl
@[simp] theorem State.setProfileBad_opu (s : State) (b : Bool) : (s.setProfileBad b).opu = s.opu := rfl
@[simp] theorem State.setProfileBad_grant (s : State) (b : Bool) : (s.setProfileBad b).grant = s.grant := rfl
@[simp] theorem State.setProfileBad_mem (s : State) (b : Bool) : (s.setProfileBad b).mem = s.mem := rfl
@[simp] theorem State.setProfileBad_ecc (s : State) (b : Bool) : (s.setProfileBad b).ecc = s.ecc := rfl
@[simp] theorem State.setProfileBad_lku (s : State) (b : Bool) : (s.setProfileBad b).lku = { s.lku with conds.profileBad := b } := rfl
@[simp] theorem State.setProfileBad_psc (s : State) (b : Bool) : (s.setProfileBad b).psc = s.psc := rfl
@[simp] theorem State.setProfileBad_free (s : State) (b : Bool) : (s.setProfileBad b).free = s.free := rfl
@[simp] theorem State.setProfileBad_pending (s : State) (b : Bool) : (s.setProfileBad b).pending = s.pending := rfl

/-! ### State.setBurnFailed -/

@[simp] theorem State.setBurnFailed_pins (s : State) (b : Bool) : (s.setBurnFailed b).pins = s.pins := rfl
@[simp] theorem State.setBurnFailed_igu (s : State) (b : Bool) : (s.setBurnFailed b).igu = s.igu := rfl
@[simp] theorem State.setBurnFailed_tku (s : State) (b : Bool) : (s.setBurnFailed b).tku = s.tku := rfl
@[simp] theorem State.setBurnFailed_swc (s : State) (b : Bool) : (s.setBurnFailed b).swc = s.swc := rfl
@[simp] theorem State.setBurnFailed_smu (s : State) (b : Bool) : (s.setBurnFailed b).smu = s.smu := rfl
@[simp] theorem State.setBurnFailed_blu (s : State) (b : Bool) : (s.setBurnFailed b).blu = s.blu := rfl
@[simp] theorem State.setBurnFailed_cvm (s : State) (b : Bool) : (s.setBurnFailed b).cvm = s.cvm := rfl
@[simp] theorem State.setBurnFailed_opu (s : State) (b : Bool) : (s.setBurnFailed b).opu = s.opu := rfl
@[simp] theorem State.setBurnFailed_grant (s : State) (b : Bool) : (s.setBurnFailed b).grant = s.grant := rfl
@[simp] theorem State.setBurnFailed_mem (s : State) (b : Bool) : (s.setBurnFailed b).mem = s.mem := rfl
@[simp] theorem State.setBurnFailed_ecc (s : State) (b : Bool) : (s.setBurnFailed b).ecc = s.ecc := rfl
@[simp] theorem State.setBurnFailed_lku (s : State) (b : Bool) : (s.setBurnFailed b).lku = { s.lku with conds.burnFailed := b } := rfl
@[simp] theorem State.setBurnFailed_psc (s : State) (b : Bool) : (s.setBurnFailed b).psc = s.psc := rfl
@[simp] theorem State.setBurnFailed_free (s : State) (b : Bool) : (s.setBurnFailed b).free = s.free := rfl
@[simp] theorem State.setBurnFailed_pending (s : State) (b : Bool) : (s.setBurnFailed b).pending = s.pending := rfl

/-! ### State.setSlotState -/

@[simp] theorem State.setSlotState_pins (s : State) (i : Fin 8) (st : SlotState) : (s.setSlotState i st).pins = s.pins := rfl
@[simp] theorem State.setSlotState_igu (s : State) (i : Fin 8) (st : SlotState) : (s.setSlotState i st).igu = { s.igu with slots := s.igu.slots.set i { s.igu.slots[i] with state := st } } := rfl
@[simp] theorem State.setSlotState_tku (s : State) (i : Fin 8) (st : SlotState) : (s.setSlotState i st).tku = s.tku := rfl
@[simp] theorem State.setSlotState_swc (s : State) (i : Fin 8) (st : SlotState) : (s.setSlotState i st).swc = s.swc := rfl
@[simp] theorem State.setSlotState_smu (s : State) (i : Fin 8) (st : SlotState) : (s.setSlotState i st).smu = s.smu := rfl
@[simp] theorem State.setSlotState_blu (s : State) (i : Fin 8) (st : SlotState) : (s.setSlotState i st).blu = s.blu := rfl
@[simp] theorem State.setSlotState_cvm (s : State) (i : Fin 8) (st : SlotState) : (s.setSlotState i st).cvm = s.cvm := rfl
@[simp] theorem State.setSlotState_opu (s : State) (i : Fin 8) (st : SlotState) : (s.setSlotState i st).opu = s.opu := rfl
@[simp] theorem State.setSlotState_grant (s : State) (i : Fin 8) (st : SlotState) : (s.setSlotState i st).grant = s.grant := rfl
@[simp] theorem State.setSlotState_mem (s : State) (i : Fin 8) (st : SlotState) : (s.setSlotState i st).mem = s.mem := rfl
@[simp] theorem State.setSlotState_ecc (s : State) (i : Fin 8) (st : SlotState) : (s.setSlotState i st).ecc = s.ecc := rfl
@[simp] theorem State.setSlotState_lku (s : State) (i : Fin 8) (st : SlotState) : (s.setSlotState i st).lku = s.lku := rfl
@[simp] theorem State.setSlotState_psc (s : State) (i : Fin 8) (st : SlotState) : (s.setSlotState i st).psc = s.psc := rfl
@[simp] theorem State.setSlotState_free (s : State) (i : Fin 8) (st : SlotState) : (s.setSlotState i st).free = s.free := rfl
@[simp] theorem State.setSlotState_pending (s : State) (i : Fin 8) (st : SlotState) : (s.setSlotState i st).pending = s.pending := rfl

/-! ### State.freeSlot -/

@[simp] theorem State.freeSlot_pins (s : State) (i : Fin 8) : (s.freeSlot i).pins = s.pins := rfl
@[simp] theorem State.freeSlot_igu (s : State) (i : Fin 8) : (s.freeSlot i).igu = { s.igu with slots := s.igu.slots.set i {} } := rfl
@[simp] theorem State.freeSlot_tku (s : State) (i : Fin 8) : (s.freeSlot i).tku = s.tku := rfl
@[simp] theorem State.freeSlot_swc (s : State) (i : Fin 8) : (s.freeSlot i).swc = s.swc := rfl
@[simp] theorem State.freeSlot_smu (s : State) (i : Fin 8) : (s.freeSlot i).smu = s.smu := rfl
@[simp] theorem State.freeSlot_blu (s : State) (i : Fin 8) : (s.freeSlot i).blu = s.blu := rfl
@[simp] theorem State.freeSlot_cvm (s : State) (i : Fin 8) : (s.freeSlot i).cvm = s.cvm := rfl
@[simp] theorem State.freeSlot_opu (s : State) (i : Fin 8) : (s.freeSlot i).opu = s.opu := rfl
@[simp] theorem State.freeSlot_grant (s : State) (i : Fin 8) : (s.freeSlot i).grant = s.grant := rfl
@[simp] theorem State.freeSlot_mem (s : State) (i : Fin 8) : (s.freeSlot i).mem = s.mem := rfl
@[simp] theorem State.freeSlot_ecc (s : State) (i : Fin 8) : (s.freeSlot i).ecc = s.ecc := rfl
@[simp] theorem State.freeSlot_lku (s : State) (i : Fin 8) : (s.freeSlot i).lku = s.lku := rfl
@[simp] theorem State.freeSlot_psc (s : State) (i : Fin 8) : (s.freeSlot i).psc = s.psc := rfl
@[simp] theorem State.freeSlot_free (s : State) (i : Fin 8) : (s.freeSlot i).free = s.free := rfl
@[simp] theorem State.freeSlot_pending (s : State) (i : Fin 8) : (s.freeSlot i).pending = s.pending := rfl

/-! ### State.putSlot -/

@[simp] theorem State.putSlot_pins (s : State) (i : Fin 8) (st : SlotState) (r : FrameRecord) : (s.putSlot i st r).pins = s.pins := rfl
@[simp] theorem State.putSlot_igu (s : State) (i : Fin 8) (st : SlotState) (r : FrameRecord) : (s.putSlot i st r).igu = { s.igu with slots := s.igu.slots.set i { state := st, record := some r } } := rfl
@[simp] theorem State.putSlot_tku (s : State) (i : Fin 8) (st : SlotState) (r : FrameRecord) : (s.putSlot i st r).tku = s.tku := rfl
@[simp] theorem State.putSlot_swc (s : State) (i : Fin 8) (st : SlotState) (r : FrameRecord) : (s.putSlot i st r).swc = s.swc := rfl
@[simp] theorem State.putSlot_smu (s : State) (i : Fin 8) (st : SlotState) (r : FrameRecord) : (s.putSlot i st r).smu = s.smu := rfl
@[simp] theorem State.putSlot_blu (s : State) (i : Fin 8) (st : SlotState) (r : FrameRecord) : (s.putSlot i st r).blu = s.blu := rfl
@[simp] theorem State.putSlot_cvm (s : State) (i : Fin 8) (st : SlotState) (r : FrameRecord) : (s.putSlot i st r).cvm = s.cvm := rfl
@[simp] theorem State.putSlot_opu (s : State) (i : Fin 8) (st : SlotState) (r : FrameRecord) : (s.putSlot i st r).opu = s.opu := rfl
@[simp] theorem State.putSlot_grant (s : State) (i : Fin 8) (st : SlotState) (r : FrameRecord) : (s.putSlot i st r).grant = s.grant := rfl
@[simp] theorem State.putSlot_mem (s : State) (i : Fin 8) (st : SlotState) (r : FrameRecord) : (s.putSlot i st r).mem = s.mem := rfl
@[simp] theorem State.putSlot_ecc (s : State) (i : Fin 8) (st : SlotState) (r : FrameRecord) : (s.putSlot i st r).ecc = s.ecc := rfl
@[simp] theorem State.putSlot_lku (s : State) (i : Fin 8) (st : SlotState) (r : FrameRecord) : (s.putSlot i st r).lku = s.lku := rfl
@[simp] theorem State.putSlot_psc (s : State) (i : Fin 8) (st : SlotState) (r : FrameRecord) : (s.putSlot i st r).psc = s.psc := rfl
@[simp] theorem State.putSlot_free (s : State) (i : Fin 8) (st : SlotState) (r : FrameRecord) : (s.putSlot i st r).free = s.free := rfl
@[simp] theorem State.putSlot_pending (s : State) (i : Fin 8) (st : SlotState) (r : FrameRecord) : (s.putSlot i st r).pending = s.pending := rfl

/-! ### State.countDropped -/

@[simp] theorem State.countDropped_pins (s : State) : (s.countDropped).pins = s.pins := rfl
@[simp] theorem State.countDropped_igu (s : State) : (s.countDropped).igu = { s.igu with dropped := addHold Config.countTop s.igu.dropped 1 } := rfl
@[simp] theorem State.countDropped_tku (s : State) : (s.countDropped).tku = s.tku := rfl
@[simp] theorem State.countDropped_swc (s : State) : (s.countDropped).swc = s.swc := rfl
@[simp] theorem State.countDropped_smu (s : State) : (s.countDropped).smu = s.smu := rfl
@[simp] theorem State.countDropped_blu (s : State) : (s.countDropped).blu = s.blu := rfl
@[simp] theorem State.countDropped_cvm (s : State) : (s.countDropped).cvm = s.cvm := rfl
@[simp] theorem State.countDropped_opu (s : State) : (s.countDropped).opu = s.opu := rfl
@[simp] theorem State.countDropped_grant (s : State) : (s.countDropped).grant = s.grant := rfl
@[simp] theorem State.countDropped_mem (s : State) : (s.countDropped).mem = s.mem := rfl
@[simp] theorem State.countDropped_ecc (s : State) : (s.countDropped).ecc = s.ecc := rfl
@[simp] theorem State.countDropped_lku (s : State) : (s.countDropped).lku = { s.lku with flags.frameDropped := true } := rfl
@[simp] theorem State.countDropped_psc (s : State) : (s.countDropped).psc = s.psc := rfl
@[simp] theorem State.countDropped_free (s : State) : (s.countDropped).free = s.free := rfl
@[simp] theorem State.countDropped_pending (s : State) : (s.countDropped).pending = s.pending := rfl

/-! ### State.updateKey -/

@[simp] theorem State.updateKey_pins (s : State) (k : Nat) (f : KeyRecord → KeyRecord) : (s.updateKey k f).pins = s.pins := rfl
@[simp] theorem State.updateKey_igu (s : State) (k : Nat) (f : KeyRecord → KeyRecord) : (s.updateKey k f).igu = s.igu := rfl
@[simp] theorem State.updateKey_tku (s : State) (k : Nat) (f : KeyRecord → KeyRecord) : (s.updateKey k f).tku = s.tku := rfl
@[simp] theorem State.updateKey_swc (s : State) (k : Nat) (f : KeyRecord → KeyRecord) : (s.updateKey k f).swc = { s.swc with keys := s.swc.keys.modify k f } := rfl
@[simp] theorem State.updateKey_smu (s : State) (k : Nat) (f : KeyRecord → KeyRecord) : (s.updateKey k f).smu = s.smu := rfl
@[simp] theorem State.updateKey_blu (s : State) (k : Nat) (f : KeyRecord → KeyRecord) : (s.updateKey k f).blu = s.blu := rfl
@[simp] theorem State.updateKey_cvm (s : State) (k : Nat) (f : KeyRecord → KeyRecord) : (s.updateKey k f).cvm = s.cvm := rfl
@[simp] theorem State.updateKey_opu (s : State) (k : Nat) (f : KeyRecord → KeyRecord) : (s.updateKey k f).opu = s.opu := rfl
@[simp] theorem State.updateKey_grant (s : State) (k : Nat) (f : KeyRecord → KeyRecord) : (s.updateKey k f).grant = s.grant := rfl
@[simp] theorem State.updateKey_mem (s : State) (k : Nat) (f : KeyRecord → KeyRecord) : (s.updateKey k f).mem = s.mem := rfl
@[simp] theorem State.updateKey_ecc (s : State) (k : Nat) (f : KeyRecord → KeyRecord) : (s.updateKey k f).ecc = s.ecc := rfl
@[simp] theorem State.updateKey_lku (s : State) (k : Nat) (f : KeyRecord → KeyRecord) : (s.updateKey k f).lku = s.lku := rfl
@[simp] theorem State.updateKey_psc (s : State) (k : Nat) (f : KeyRecord → KeyRecord) : (s.updateKey k f).psc = s.psc := rfl
@[simp] theorem State.updateKey_free (s : State) (k : Nat) (f : KeyRecord → KeyRecord) : (s.updateKey k f).free = s.free := rfl
@[simp] theorem State.updateKey_pending (s : State) (k : Nat) (f : KeyRecord → KeyRecord) : (s.updateKey k f).pending = s.pending := rfl

/-! ### State.addKey -/

@[simp] theorem State.addKey_pins (s : State) (r : KeyRecord) : (s.addKey r).pins = s.pins := rfl
@[simp] theorem State.addKey_igu (s : State) (r : KeyRecord) : (s.addKey r).igu = s.igu := rfl
@[simp] theorem State.addKey_tku (s : State) (r : KeyRecord) : (s.addKey r).tku = s.tku := rfl
@[simp] theorem State.addKey_swc (s : State) (r : KeyRecord) : (s.addKey r).swc = { s.swc with keys := s.swc.keys ++ [r] } := rfl
@[simp] theorem State.addKey_smu (s : State) (r : KeyRecord) : (s.addKey r).smu = s.smu := rfl
@[simp] theorem State.addKey_blu (s : State) (r : KeyRecord) : (s.addKey r).blu = s.blu := rfl
@[simp] theorem State.addKey_cvm (s : State) (r : KeyRecord) : (s.addKey r).cvm = s.cvm := rfl
@[simp] theorem State.addKey_opu (s : State) (r : KeyRecord) : (s.addKey r).opu = s.opu := rfl
@[simp] theorem State.addKey_grant (s : State) (r : KeyRecord) : (s.addKey r).grant = s.grant := rfl
@[simp] theorem State.addKey_mem (s : State) (r : KeyRecord) : (s.addKey r).mem = s.mem := rfl
@[simp] theorem State.addKey_ecc (s : State) (r : KeyRecord) : (s.addKey r).ecc = s.ecc := rfl
@[simp] theorem State.addKey_lku (s : State) (r : KeyRecord) : (s.addKey r).lku = s.lku := rfl
@[simp] theorem State.addKey_psc (s : State) (r : KeyRecord) : (s.addKey r).psc = s.psc := rfl
@[simp] theorem State.addKey_free (s : State) (r : KeyRecord) : (s.addKey r).free = s.free := rfl
@[simp] theorem State.addKey_pending (s : State) (r : KeyRecord) : (s.addKey r).pending = s.pending := rfl

/-! ### State.updateStrip -/

@[simp] theorem State.updateStrip_pins (s : State) (j : Nat) (f : Strip → Strip) : (s.updateStrip j f).pins = s.pins := rfl
@[simp] theorem State.updateStrip_igu (s : State) (j : Nat) (f : Strip → Strip) : (s.updateStrip j f).igu = s.igu := rfl
@[simp] theorem State.updateStrip_tku (s : State) (j : Nat) (f : Strip → Strip) : (s.updateStrip j f).tku = s.tku := rfl
@[simp] theorem State.updateStrip_swc (s : State) (j : Nat) (f : Strip → Strip) : (s.updateStrip j f).swc = s.swc := rfl
@[simp] theorem State.updateStrip_smu (s : State) (j : Nat) (f : Strip → Strip) : (s.updateStrip j f).smu = s.smu := rfl
@[simp] theorem State.updateStrip_blu (s : State) (j : Nat) (f : Strip → Strip) : (s.updateStrip j f).blu = s.blu := rfl
@[simp] theorem State.updateStrip_cvm (s : State) (j : Nat) (f : Strip → Strip) : (s.updateStrip j f).cvm = { s.cvm with strips := s.cvm.strips.map (fun r => if r.index = j then f r else r) } := rfl
@[simp] theorem State.updateStrip_opu (s : State) (j : Nat) (f : Strip → Strip) : (s.updateStrip j f).opu = s.opu := rfl
@[simp] theorem State.updateStrip_grant (s : State) (j : Nat) (f : Strip → Strip) : (s.updateStrip j f).grant = s.grant := rfl
@[simp] theorem State.updateStrip_mem (s : State) (j : Nat) (f : Strip → Strip) : (s.updateStrip j f).mem = s.mem := rfl
@[simp] theorem State.updateStrip_ecc (s : State) (j : Nat) (f : Strip → Strip) : (s.updateStrip j f).ecc = s.ecc := rfl
@[simp] theorem State.updateStrip_lku (s : State) (j : Nat) (f : Strip → Strip) : (s.updateStrip j f).lku = s.lku := rfl
@[simp] theorem State.updateStrip_psc (s : State) (j : Nat) (f : Strip → Strip) : (s.updateStrip j f).psc = s.psc := rfl
@[simp] theorem State.updateStrip_free (s : State) (j : Nat) (f : Strip → Strip) : (s.updateStrip j f).free = s.free := rfl
@[simp] theorem State.updateStrip_pending (s : State) (j : Nat) (f : Strip → Strip) : (s.updateStrip j f).pending = s.pending := rfl

/-! ### State.countSent -/

@[simp] theorem State.countSent_pins (s : State) : (s.countSent).pins = s.pins := rfl
@[simp] theorem State.countSent_igu (s : State) : (s.countSent).igu = s.igu := rfl
@[simp] theorem State.countSent_tku (s : State) : (s.countSent).tku = s.tku := rfl
@[simp] theorem State.countSent_swc (s : State) : (s.countSent).swc = s.swc := rfl
@[simp] theorem State.countSent_smu (s : State) : (s.countSent).smu = s.smu := rfl
@[simp] theorem State.countSent_blu (s : State) : (s.countSent).blu = s.blu := rfl
@[simp] theorem State.countSent_cvm (s : State) : (s.countSent).cvm = { s.cvm with sent := addHold Config.countTop s.cvm.sent 1 } := rfl
@[simp] theorem State.countSent_opu (s : State) : (s.countSent).opu = s.opu := rfl
@[simp] theorem State.countSent_grant (s : State) : (s.countSent).grant = s.grant := rfl
@[simp] theorem State.countSent_mem (s : State) : (s.countSent).mem = s.mem := rfl
@[simp] theorem State.countSent_ecc (s : State) : (s.countSent).ecc = s.ecc := rfl
@[simp] theorem State.countSent_lku (s : State) : (s.countSent).lku = s.lku := rfl
@[simp] theorem State.countSent_psc (s : State) : (s.countSent).psc = s.psc := rfl
@[simp] theorem State.countSent_free (s : State) : (s.countSent).free = s.free := rfl
@[simp] theorem State.countSent_pending (s : State) : (s.countSent).pending = s.pending := rfl

/-! ### State.countSkipped -/

@[simp] theorem State.countSkipped_pins (s : State) : (s.countSkipped).pins = s.pins := rfl
@[simp] theorem State.countSkipped_igu (s : State) : (s.countSkipped).igu = s.igu := rfl
@[simp] theorem State.countSkipped_tku (s : State) : (s.countSkipped).tku = s.tku := rfl
@[simp] theorem State.countSkipped_swc (s : State) : (s.countSkipped).swc = s.swc := rfl
@[simp] theorem State.countSkipped_smu (s : State) : (s.countSkipped).smu = s.smu := rfl
@[simp] theorem State.countSkipped_blu (s : State) : (s.countSkipped).blu = s.blu := rfl
@[simp] theorem State.countSkipped_cvm (s : State) : (s.countSkipped).cvm = { s.cvm with skipped := addHold Config.countTop s.cvm.skipped 1 } := rfl
@[simp] theorem State.countSkipped_opu (s : State) : (s.countSkipped).opu = s.opu := rfl
@[simp] theorem State.countSkipped_grant (s : State) : (s.countSkipped).grant = s.grant := rfl
@[simp] theorem State.countSkipped_mem (s : State) : (s.countSkipped).mem = s.mem := rfl
@[simp] theorem State.countSkipped_ecc (s : State) : (s.countSkipped).ecc = s.ecc := rfl
@[simp] theorem State.countSkipped_lku (s : State) : (s.countSkipped).lku = s.lku := rfl
@[simp] theorem State.countSkipped_psc (s : State) : (s.countSkipped).psc = s.psc := rfl
@[simp] theorem State.countSkipped_free (s : State) : (s.countSkipped).free = s.free := rfl
@[simp] theorem State.countSkipped_pending (s : State) : (s.countSkipped).pending = s.pending := rfl

/-! ### State.countDiscarded -/

@[simp] theorem State.countDiscarded_pins (s : State) : (s.countDiscarded).pins = s.pins := rfl
@[simp] theorem State.countDiscarded_igu (s : State) : (s.countDiscarded).igu = s.igu := rfl
@[simp] theorem State.countDiscarded_tku (s : State) : (s.countDiscarded).tku = s.tku := rfl
@[simp] theorem State.countDiscarded_swc (s : State) : (s.countDiscarded).swc = s.swc := rfl
@[simp] theorem State.countDiscarded_smu (s : State) : (s.countDiscarded).smu = s.smu := rfl
@[simp] theorem State.countDiscarded_blu (s : State) : (s.countDiscarded).blu = s.blu := rfl
@[simp] theorem State.countDiscarded_cvm (s : State) : (s.countDiscarded).cvm = { s.cvm with discarded := addHold Config.countTop s.cvm.discarded 1 } := rfl
@[simp] theorem State.countDiscarded_opu (s : State) : (s.countDiscarded).opu = s.opu := rfl
@[simp] theorem State.countDiscarded_grant (s : State) : (s.countDiscarded).grant = s.grant := rfl
@[simp] theorem State.countDiscarded_mem (s : State) : (s.countDiscarded).mem = s.mem := rfl
@[simp] theorem State.countDiscarded_ecc (s : State) : (s.countDiscarded).ecc = s.ecc := rfl
@[simp] theorem State.countDiscarded_lku (s : State) : (s.countDiscarded).lku = s.lku := rfl
@[simp] theorem State.countDiscarded_psc (s : State) : (s.countDiscarded).psc = s.psc := rfl
@[simp] theorem State.countDiscarded_free (s : State) : (s.countDiscarded).free = s.free := rfl
@[simp] theorem State.countDiscarded_pending (s : State) : (s.countDiscarded).pending = s.pending := rfl

/-! ### State.setOpuState -/

@[simp] theorem State.setOpuState_pins (s : State) (st : OpuState) : (s.setOpuState st).pins = s.pins := rfl
@[simp] theorem State.setOpuState_igu (s : State) (st : OpuState) : (s.setOpuState st).igu = s.igu := rfl
@[simp] theorem State.setOpuState_tku (s : State) (st : OpuState) : (s.setOpuState st).tku = s.tku := rfl
@[simp] theorem State.setOpuState_swc (s : State) (st : OpuState) : (s.setOpuState st).swc = s.swc := rfl
@[simp] theorem State.setOpuState_smu (s : State) (st : OpuState) : (s.setOpuState st).smu = s.smu := rfl
@[simp] theorem State.setOpuState_blu (s : State) (st : OpuState) : (s.setOpuState st).blu = s.blu := rfl
@[simp] theorem State.setOpuState_cvm (s : State) (st : OpuState) : (s.setOpuState st).cvm = s.cvm := rfl
@[simp] theorem State.setOpuState_opu (s : State) (st : OpuState) : (s.setOpuState st).opu = { s.opu with state := st } := rfl
@[simp] theorem State.setOpuState_grant (s : State) (st : OpuState) : (s.setOpuState st).grant = s.grant := rfl
@[simp] theorem State.setOpuState_mem (s : State) (st : OpuState) : (s.setOpuState st).mem = s.mem := rfl
@[simp] theorem State.setOpuState_ecc (s : State) (st : OpuState) : (s.setOpuState st).ecc = s.ecc := rfl
@[simp] theorem State.setOpuState_lku (s : State) (st : OpuState) : (s.setOpuState st).lku = s.lku := rfl
@[simp] theorem State.setOpuState_psc (s : State) (st : OpuState) : (s.setOpuState st).psc = s.psc := rfl
@[simp] theorem State.setOpuState_free (s : State) (st : OpuState) : (s.setOpuState st).free = s.free := rfl
@[simp] theorem State.setOpuState_pending (s : State) (st : OpuState) : (s.setOpuState st).pending = s.pending := rfl

/-! ### State.clearTransfer -/

@[simp] theorem State.clearTransfer_pins (s : State) : (s.clearTransfer).pins = s.pins := rfl
@[simp] theorem State.clearTransfer_igu (s : State) : (s.clearTransfer).igu = s.igu := rfl
@[simp] theorem State.clearTransfer_tku (s : State) : (s.clearTransfer).tku = s.tku := rfl
@[simp] theorem State.clearTransfer_swc (s : State) : (s.clearTransfer).swc = s.swc := rfl
@[simp] theorem State.clearTransfer_smu (s : State) : (s.clearTransfer).smu = s.smu := rfl
@[simp] theorem State.clearTransfer_blu (s : State) : (s.clearTransfer).blu = s.blu := rfl
@[simp] theorem State.clearTransfer_cvm (s : State) : (s.clearTransfer).cvm = s.cvm := rfl
@[simp] theorem State.clearTransfer_opu (s : State) : (s.clearTransfer).opu = { s.opu with number := 0, xfer := none } := rfl
@[simp] theorem State.clearTransfer_grant (s : State) : (s.clearTransfer).grant = s.grant := rfl
@[simp] theorem State.clearTransfer_mem (s : State) : (s.clearTransfer).mem = s.mem := rfl
@[simp] theorem State.clearTransfer_ecc (s : State) : (s.clearTransfer).ecc = s.ecc := rfl
@[simp] theorem State.clearTransfer_lku (s : State) : (s.clearTransfer).lku = s.lku := rfl
@[simp] theorem State.clearTransfer_psc (s : State) : (s.clearTransfer).psc = s.psc := rfl
@[simp] theorem State.clearTransfer_free (s : State) : (s.clearTransfer).free = s.free := rfl
@[simp] theorem State.clearTransfer_pending (s : State) : (s.clearTransfer).pending = s.pending := rfl

/-! ### State.setStage -/

@[simp] theorem State.setStage_pins (s : State) (st : TrackStage) : (s.setStage st).pins = s.pins := rfl
@[simp] theorem State.setStage_igu (s : State) (st : TrackStage) : (s.setStage st).igu = s.igu := rfl
@[simp] theorem State.setStage_tku (s : State) (st : TrackStage) : (s.setStage st).tku = { s.tku with op := s.tku.op.map (fun op => { op with stage := st }) } := rfl
@[simp] theorem State.setStage_swc (s : State) (st : TrackStage) : (s.setStage st).swc = s.swc := rfl
@[simp] theorem State.setStage_smu (s : State) (st : TrackStage) : (s.setStage st).smu = s.smu := rfl
@[simp] theorem State.setStage_blu (s : State) (st : TrackStage) : (s.setStage st).blu = s.blu := rfl
@[simp] theorem State.setStage_cvm (s : State) (st : TrackStage) : (s.setStage st).cvm = s.cvm := rfl
@[simp] theorem State.setStage_opu (s : State) (st : TrackStage) : (s.setStage st).opu = s.opu := rfl
@[simp] theorem State.setStage_grant (s : State) (st : TrackStage) : (s.setStage st).grant = s.grant := rfl
@[simp] theorem State.setStage_mem (s : State) (st : TrackStage) : (s.setStage st).mem = s.mem := rfl
@[simp] theorem State.setStage_ecc (s : State) (st : TrackStage) : (s.setStage st).ecc = s.ecc := rfl
@[simp] theorem State.setStage_lku (s : State) (st : TrackStage) : (s.setStage st).lku = s.lku := rfl
@[simp] theorem State.setStage_psc (s : State) (st : TrackStage) : (s.setStage st).psc = s.psc := rfl
@[simp] theorem State.setStage_free (s : State) (st : TrackStage) : (s.setStage st).free = s.free := rfl
@[simp] theorem State.setStage_pending (s : State) (st : TrackStage) : (s.setStage st).pending = s.pending := rfl

/-! ### State.askSelection -/

@[simp] theorem State.askSelection_pins (s : State) (kind : SetKind) (slot : Fin 8) : (s.askSelection kind slot).pins = s.pins := rfl
@[simp] theorem State.askSelection_igu (s : State) (kind : SetKind) (slot : Fin 8) : (s.askSelection kind slot).igu = s.igu := rfl
@[simp] theorem State.askSelection_tku (s : State) (kind : SetKind) (slot : Fin 8) : (s.askSelection kind slot).tku = { s.tku with op := s.tku.op.map (fun op => { op with selections := op.selections ++ [{ kind := kind, slot := slot }] }) } := rfl
@[simp] theorem State.askSelection_swc (s : State) (kind : SetKind) (slot : Fin 8) : (s.askSelection kind slot).swc = s.swc := rfl
@[simp] theorem State.askSelection_smu (s : State) (kind : SetKind) (slot : Fin 8) : (s.askSelection kind slot).smu = s.smu := rfl
@[simp] theorem State.askSelection_blu (s : State) (kind : SetKind) (slot : Fin 8) : (s.askSelection kind slot).blu = s.blu := rfl
@[simp] theorem State.askSelection_cvm (s : State) (kind : SetKind) (slot : Fin 8) : (s.askSelection kind slot).cvm = s.cvm := rfl
@[simp] theorem State.askSelection_opu (s : State) (kind : SetKind) (slot : Fin 8) : (s.askSelection kind slot).opu = s.opu := rfl
@[simp] theorem State.askSelection_grant (s : State) (kind : SetKind) (slot : Fin 8) : (s.askSelection kind slot).grant = s.grant := rfl
@[simp] theorem State.askSelection_mem (s : State) (kind : SetKind) (slot : Fin 8) : (s.askSelection kind slot).mem = s.mem := rfl
@[simp] theorem State.askSelection_ecc (s : State) (kind : SetKind) (slot : Fin 8) : (s.askSelection kind slot).ecc = s.ecc := rfl
@[simp] theorem State.askSelection_lku (s : State) (kind : SetKind) (slot : Fin 8) : (s.askSelection kind slot).lku = s.lku := rfl
@[simp] theorem State.askSelection_psc (s : State) (kind : SetKind) (slot : Fin 8) : (s.askSelection kind slot).psc = s.psc := rfl
@[simp] theorem State.askSelection_free (s : State) (kind : SetKind) (slot : Fin 8) : (s.askSelection kind slot).free = s.free := rfl
@[simp] theorem State.askSelection_pending (s : State) (kind : SetKind) (slot : Fin 8) : (s.askSelection kind slot).pending = s.pending := rfl

/-! ### State.rebase -/

@[simp] theorem State.rebase_pins (s : State) (r : FrameResult) : (s.rebase r).pins = s.pins := rfl
@[simp] theorem State.rebase_igu (s : State) (r : FrameResult) : (s.rebase r).igu = s.igu := rfl
@[simp] theorem State.rebase_tku (s : State) (r : FrameResult) : (s.rebase r).tku = { s.tku with held := (s.tku.held.1 - r.au, s.tku.held.2 - r.av) } := rfl
@[simp] theorem State.rebase_swc (s : State) (r : FrameResult) : (s.rebase r).swc = s.swc := rfl
@[simp] theorem State.rebase_smu (s : State) (r : FrameResult) : (s.rebase r).smu = s.smu := rfl
@[simp] theorem State.rebase_blu (s : State) (r : FrameResult) : (s.rebase r).blu = s.blu := rfl
@[simp] theorem State.rebase_cvm (s : State) (r : FrameResult) : (s.rebase r).cvm = s.cvm := rfl
@[simp] theorem State.rebase_opu (s : State) (r : FrameResult) : (s.rebase r).opu = s.opu := rfl
@[simp] theorem State.rebase_grant (s : State) (r : FrameResult) : (s.rebase r).grant = s.grant := rfl
@[simp] theorem State.rebase_mem (s : State) (r : FrameResult) : (s.rebase r).mem = s.mem := rfl
@[simp] theorem State.rebase_ecc (s : State) (r : FrameResult) : (s.rebase r).ecc = s.ecc := rfl
@[simp] theorem State.rebase_lku (s : State) (r : FrameResult) : (s.rebase r).lku = s.lku := rfl
@[simp] theorem State.rebase_psc (s : State) (r : FrameResult) : (s.rebase r).psc = s.psc := rfl
@[simp] theorem State.rebase_free (s : State) (r : FrameResult) : (s.rebase r).free = s.free := rfl
@[simp] theorem State.rebase_pending (s : State) (r : FrameResult) : (s.rebase r).pending = s.pending := rfl

/-! ### State.setLock -/

@[simp] theorem State.setLock_pins (s : State) (l : Lock) : (s.setLock l).pins = s.pins := rfl
@[simp] theorem State.setLock_igu (s : State) (l : Lock) : (s.setLock l).igu = s.igu := rfl
@[simp] theorem State.setLock_tku (s : State) (l : Lock) : (s.setLock l).tku = { s.tku with lock := l } := rfl
@[simp] theorem State.setLock_swc (s : State) (l : Lock) : (s.setLock l).swc = s.swc := rfl
@[simp] theorem State.setLock_smu (s : State) (l : Lock) : (s.setLock l).smu = s.smu := rfl
@[simp] theorem State.setLock_blu (s : State) (l : Lock) : (s.setLock l).blu = s.blu := rfl
@[simp] theorem State.setLock_cvm (s : State) (l : Lock) : (s.setLock l).cvm = s.cvm := rfl
@[simp] theorem State.setLock_opu (s : State) (l : Lock) : (s.setLock l).opu = s.opu := rfl
@[simp] theorem State.setLock_grant (s : State) (l : Lock) : (s.setLock l).grant = s.grant := rfl
@[simp] theorem State.setLock_mem (s : State) (l : Lock) : (s.setLock l).mem = s.mem := rfl
@[simp] theorem State.setLock_ecc (s : State) (l : Lock) : (s.setLock l).ecc = s.ecc := rfl
@[simp] theorem State.setLock_lku (s : State) (l : Lock) : (s.setLock l).lku = s.lku := rfl
@[simp] theorem State.setLock_psc (s : State) (l : Lock) : (s.setLock l).psc = s.psc := rfl
@[simp] theorem State.setLock_free (s : State) (l : Lock) : (s.setLock l).free = s.free := rfl
@[simp] theorem State.setLock_pending (s : State) (l : Lock) : (s.setLock l).pending = s.pending := rfl

/-! ### State.setClosureRun -/

@[simp] theorem State.setClosureRun_pins (s : State) (n : Nat) : (s.setClosureRun n).pins = s.pins := rfl
@[simp] theorem State.setClosureRun_igu (s : State) (n : Nat) : (s.setClosureRun n).igu = s.igu := rfl
@[simp] theorem State.setClosureRun_tku (s : State) (n : Nat) : (s.setClosureRun n).tku = s.tku := rfl
@[simp] theorem State.setClosureRun_swc (s : State) (n : Nat) : (s.setClosureRun n).swc = s.swc := rfl
@[simp] theorem State.setClosureRun_smu (s : State) (n : Nat) : (s.setClosureRun n).smu = s.smu := rfl
@[simp] theorem State.setClosureRun_blu (s : State) (n : Nat) : (s.setClosureRun n).blu = s.blu := rfl
@[simp] theorem State.setClosureRun_cvm (s : State) (n : Nat) : (s.setClosureRun n).cvm = { s.cvm with closureRun := n } := rfl
@[simp] theorem State.setClosureRun_opu (s : State) (n : Nat) : (s.setClosureRun n).opu = s.opu := rfl
@[simp] theorem State.setClosureRun_grant (s : State) (n : Nat) : (s.setClosureRun n).grant = s.grant := rfl
@[simp] theorem State.setClosureRun_mem (s : State) (n : Nat) : (s.setClosureRun n).mem = s.mem := rfl
@[simp] theorem State.setClosureRun_ecc (s : State) (n : Nat) : (s.setClosureRun n).ecc = s.ecc := rfl
@[simp] theorem State.setClosureRun_lku (s : State) (n : Nat) : (s.setClosureRun n).lku = s.lku := rfl
@[simp] theorem State.setClosureRun_psc (s : State) (n : Nat) : (s.setClosureRun n).psc = s.psc := rfl
@[simp] theorem State.setClosureRun_free (s : State) (n : Nat) : (s.setClosureRun n).free = s.free := rfl
@[simp] theorem State.setClosureRun_pending (s : State) (n : Nat) : (s.setClosureRun n).pending = s.pending := rfl

/-! ### State.createStrip -/

@[simp] theorem State.createStrip_pins (s : State) (j : Nat) : (s.createStrip j).pins = s.pins := rfl
@[simp] theorem State.createStrip_igu (s : State) (j : Nat) : (s.createStrip j).igu = s.igu := rfl
@[simp] theorem State.createStrip_tku (s : State) (j : Nat) : (s.createStrip j).tku = s.tku := rfl
@[simp] theorem State.createStrip_swc (s : State) (j : Nat) : (s.createStrip j).swc = s.swc := rfl
@[simp] theorem State.createStrip_smu (s : State) (j : Nat) : (s.createStrip j).smu = s.smu := rfl
@[simp] theorem State.createStrip_blu (s : State) (j : Nat) : (s.createStrip j).blu = s.blu := rfl
@[simp] theorem State.createStrip_cvm (s : State) (j : Nat) : (s.createStrip j).cvm = { s.cvm with strips := insertStrip (s.freshStrip j) s.cvm.strips } := rfl
@[simp] theorem State.createStrip_opu (s : State) (j : Nat) : (s.createStrip j).opu = s.opu := rfl
@[simp] theorem State.createStrip_grant (s : State) (j : Nat) : (s.createStrip j).grant = s.grant := rfl
@[simp] theorem State.createStrip_mem (s : State) (j : Nat) : (s.createStrip j).mem = s.mem := rfl
@[simp] theorem State.createStrip_ecc (s : State) (j : Nat) : (s.createStrip j).ecc = s.ecc := rfl
@[simp] theorem State.createStrip_lku (s : State) (j : Nat) : (s.createStrip j).lku = s.lku := rfl
@[simp] theorem State.createStrip_psc (s : State) (j : Nat) : (s.createStrip j).psc = s.psc := rfl
@[simp] theorem State.createStrip_free (s : State) (j : Nat) : (s.createStrip j).free = s.free := rfl
@[simp] theorem State.createStrip_pending (s : State) (j : Nat) : (s.createStrip j).pending = s.pending := rfl

/-! ### State.presentLine -/

@[simp] theorem State.presentLine_pins (s : State) (line : List Beat) : (s.presentLine line).pins = { s.pins with sopLv := true, sopLine := line, sopBeat := 0 } := rfl
@[simp] theorem State.presentLine_igu (s : State) (line : List Beat) : (s.presentLine line).igu = s.igu := rfl
@[simp] theorem State.presentLine_tku (s : State) (line : List Beat) : (s.presentLine line).tku = s.tku := rfl
@[simp] theorem State.presentLine_swc (s : State) (line : List Beat) : (s.presentLine line).swc = s.swc := rfl
@[simp] theorem State.presentLine_smu (s : State) (line : List Beat) : (s.presentLine line).smu = s.smu := rfl
@[simp] theorem State.presentLine_blu (s : State) (line : List Beat) : (s.presentLine line).blu = s.blu := rfl
@[simp] theorem State.presentLine_cvm (s : State) (line : List Beat) : (s.presentLine line).cvm = s.cvm := rfl
@[simp] theorem State.presentLine_opu (s : State) (line : List Beat) : (s.presentLine line).opu = s.opu := rfl
@[simp] theorem State.presentLine_grant (s : State) (line : List Beat) : (s.presentLine line).grant = s.grant := rfl
@[simp] theorem State.presentLine_mem (s : State) (line : List Beat) : (s.presentLine line).mem = s.mem := rfl
@[simp] theorem State.presentLine_ecc (s : State) (line : List Beat) : (s.presentLine line).ecc = s.ecc := rfl
@[simp] theorem State.presentLine_lku (s : State) (line : List Beat) : (s.presentLine line).lku = s.lku := rfl
@[simp] theorem State.presentLine_psc (s : State) (line : List Beat) : (s.presentLine line).psc = s.psc := rfl
@[simp] theorem State.presentLine_free (s : State) (line : List Beat) : (s.presentLine line).free = s.free := rfl
@[simp] theorem State.presentLine_pending (s : State) (line : List Beat) : (s.presentLine line).pending = s.pending := rfl

/-! ### State.trailerRecord -/

theorem State.trailerRecord_begun (s : State) {x : Transfer} (h : x.trailer = true) : s.trailerRecord x = x := if_pos h
theorem State.trailerRecord_new (s : State) {x : Transfer} {r : Strip} (h : x.trailer = false) (hr : s.stripAt x.strip = some r) :
    s.trailerRecord x = { x with holes := r.holes, flags := s.stripFlags r } := by
  simp [State.trailerRecord, State.refreshed, h, hr]

/-! ### State.presentTrailer -/

@[simp] theorem State.presentTrailer_pins (s : State) (x : Transfer) (status : Nat) : (s.presentTrailer x status).pins = { s.pins with sopLine := trailerLine x s.opu.number status, sopBeat := (trailerLine x s.opu.number status).length, sopLv := false, sopFv := false } := rfl
@[simp] theorem State.presentTrailer_igu (s : State) (x : Transfer) (status : Nat) : (s.presentTrailer x status).igu = s.igu := rfl
@[simp] theorem State.presentTrailer_tku (s : State) (x : Transfer) (status : Nat) : (s.presentTrailer x status).tku = s.tku := rfl
@[simp] theorem State.presentTrailer_swc (s : State) (x : Transfer) (status : Nat) : (s.presentTrailer x status).swc = s.swc := rfl
@[simp] theorem State.presentTrailer_smu (s : State) (x : Transfer) (status : Nat) : (s.presentTrailer x status).smu = s.smu := rfl
@[simp] theorem State.presentTrailer_blu (s : State) (x : Transfer) (status : Nat) : (s.presentTrailer x status).blu = s.blu := rfl
@[simp] theorem State.presentTrailer_cvm (s : State) (x : Transfer) (status : Nat) : (s.presentTrailer x status).cvm = s.cvm := rfl
@[simp] theorem State.presentTrailer_opu (s : State) (x : Transfer) (status : Nat) : (s.presentTrailer x status).opu = s.opu := rfl
@[simp] theorem State.presentTrailer_grant (s : State) (x : Transfer) (status : Nat) : (s.presentTrailer x status).grant = s.grant := rfl
@[simp] theorem State.presentTrailer_mem (s : State) (x : Transfer) (status : Nat) : (s.presentTrailer x status).mem = s.mem := rfl
@[simp] theorem State.presentTrailer_ecc (s : State) (x : Transfer) (status : Nat) : (s.presentTrailer x status).ecc = s.ecc := rfl
@[simp] theorem State.presentTrailer_lku (s : State) (x : Transfer) (status : Nat) : (s.presentTrailer x status).lku = s.lku := rfl
@[simp] theorem State.presentTrailer_psc (s : State) (x : Transfer) (status : Nat) : (s.presentTrailer x status).psc = s.psc := rfl
@[simp] theorem State.presentTrailer_free (s : State) (x : Transfer) (status : Nat) : (s.presentTrailer x status).free = s.free := rfl
@[simp] theorem State.presentTrailer_pending (s : State) (x : Transfer) (status : Nat) : (s.presentTrailer x status).pending = s.pending := rfl

/-! ### State.orphanAccess -/

@[simp] theorem State.orphanAccess_pins (s : State) : (s.orphanAccess).pins = s.pins := rfl
@[simp] theorem State.orphanAccess_igu (s : State) : (s.orphanAccess).igu = s.igu := rfl
@[simp] theorem State.orphanAccess_tku (s : State) : (s.orphanAccess).tku = s.tku := rfl
@[simp] theorem State.orphanAccess_swc (s : State) : (s.orphanAccess).swc = s.swc := rfl
@[simp] theorem State.orphanAccess_smu (s : State) : (s.orphanAccess).smu = s.smu := rfl
@[simp] theorem State.orphanAccess_blu (s : State) : (s.orphanAccess).blu = s.blu := rfl
@[simp] theorem State.orphanAccess_cvm (s : State) : (s.orphanAccess).cvm = s.cvm := rfl
@[simp] theorem State.orphanAccess_opu (s : State) : (s.orphanAccess).opu = s.opu := rfl
@[simp] theorem State.orphanAccess_grant (s : State) : (s.orphanAccess).grant = s.grant.map (fun g => { g with live := false }) := rfl
@[simp] theorem State.orphanAccess_mem (s : State) : (s.orphanAccess).mem = s.mem := rfl
@[simp] theorem State.orphanAccess_ecc (s : State) : (s.orphanAccess).ecc = s.ecc := rfl
@[simp] theorem State.orphanAccess_lku (s : State) : (s.orphanAccess).lku = s.lku := rfl
@[simp] theorem State.orphanAccess_psc (s : State) : (s.orphanAccess).psc = s.psc := rfl
@[simp] theorem State.orphanAccess_free (s : State) : (s.orphanAccess).free = s.free := rfl
@[simp] theorem State.orphanAccess_pending (s : State) : (s.orphanAccess).pending = s.pending := rfl

end Sys2Proof.Machine
end

