-- ==== Sys2Proof/Laws/Requests.lean ====
section
/-! SUPPORT. What the execution of a request can do: the head request and its answer, the notices, and how the bytes of a field are read back. -/
namespace Sys2Proof.Machine

/-! ### The head request (11 R173) -/

/-- A row whose type is that of the head request runs its handler on the body. -/
theorem execute_of_executes {s : State} {type tag : Byte} {body : List Byte} {rest : List Request}
    (h : s.Executes type tag body rest) (handle : List Byte → State) :
    s.execute type handle = .next (handle body) := by
  simp [State.execute, State.headRequest, h.1, h.2, Option.filter]

/-- A row whose type is not that of the head request has no effect. -/
theorem execute_of_other {s : State} {type : Byte} (handle : List Byte → State)
    (h : ∀ r, s.lku.requests.head? = some r → r.type ≠ type) : s.execute type handle = .next s := by
  unfold State.execute State.headRequest
  cases hr : s.lku.requests.head? with
  | none => simp
  | some r => cases s.lku.executing <;> simp [Option.filter, h r hr]

/-- Everything that a row's execution can do: run its handler on the head request, or nothing. -/
theorem execute_cases (s : State) (type : Byte) (handle : List Byte → State) :
    (∃ tag body rest, s.Executes type tag body rest ∧ s.execute type handle = .next (handle body))
      ∨ s.execute type handle = .next s := by
  unfold State.execute State.headRequest
  cases he : s.lku.executing with
  | false => right; simp
  | true =>
    cases hq : s.lku.requests with
    | nil => right; simp
    | cons r rest =>
      by_cases ht : r.type = type
      · left
        refine ⟨r.tag, r.body, rest, ⟨he, ?_⟩, by simp [ht, Option.filter]⟩
        rw [hq, ← ht]
      · right
        simp [ht, Option.filter]

/-- The answer of an executed request is what `answeredOnly` says, with the reply type of 11 R171. -/
theorem answer_of_executes {s : State} {type tag : Byte} {body : List Byte} {rest : List Request}
    (h : s.Executes type tag body rest) (b : ReplyBody) :
    s.answer b = s.answeredOnly rest (replyType type) tag b := by
  simp [State.answer, h.2, State.answeredOnly, Lku.answered]

/-- The same after a change that keeps the request queue, with the reply type given. -/
theorem answer_of_requests {s : State} {type tag rt : Byte} {body : List Byte} {rest : List Request}
    (h : s.lku.requests = { type := type, tag := tag, body := body } :: rest) (b : ReplyBody)
    (hr : replyType type = rt) : s.answer b = s.answeredOnly rest rt tag b := by
  simp [State.answer, h, State.answeredOnly, Lku.answered, hr]

@[simp] theorem withoutFields_nil (s t : State) : s.withoutFields [] t = t := rfl

theorem withoutFields_bad {body : List Byte} (h : body ≠ []) (s t : State) :
    s.withoutFields body t = s.answerCode .badField := by
  simp [State.withoutFields, h]

/-- What is answered does not touch the other blocks. -/
@[simp] theorem answeredOnly_blocks (s : State) (rest : List Request) (type tag : Byte) (b : ReplyBody) :
    (s.answeredOnly rest type tag b).pins = s.pins ∧ (s.answeredOnly rest type tag b).igu = s.igu
      ∧ (s.answeredOnly rest type tag b).tku = s.tku ∧ (s.answeredOnly rest type tag b).swc = s.swc
      ∧ (s.answeredOnly rest type tag b).smu = s.smu ∧ (s.answeredOnly rest type tag b).blu = s.blu
      ∧ (s.answeredOnly rest type tag b).cvm = s.cvm ∧ (s.answeredOnly rest type tag b).opu = s.opu
      ∧ (s.answeredOnly rest type tag b).psc = s.psc ∧ (s.answeredOnly rest type tag b).mem = s.mem :=
  ⟨rfl, rfl, rfl, rfl, rfl, rfl, rfl, rfl, rfl, rfl⟩

/-- The link unit once the head request is answered. -/
@[simp] theorem answeredOnly_lku (s : State) (rest : List Request) (type tag : Byte) (b : ReplyBody) :
    (s.answeredOnly rest type tag b).lku = s.lku.answered rest type tag b := rfl

/-! ### Notices (11 R176) -/

/-- Everything that a notice changes: the sequence number, and the queue or the NOTICE_LOST flag. -/
theorem notify_cases (s : State) (b : NoticeBody) :
    (s.lku.notices.length < 16 ∧ s.notify b = { s with lku := { s.lku with
        notices := s.lku.notices ++ [{ seq := s.lku.seq, body := b }], seq := s.lku.seq + 1#8 } })
      ∨ (16 ≤ s.lku.notices.length ∧ s.notify b = { s with lku := { s.lku with
        seq := s.lku.seq + 1#8, flags.noticeLost := true } }) := by
  unfold State.notify Config.noticePlaces
  by_cases h : s.lku.notices.length < 16
  · left; exact ⟨h, by rw [if_pos h]⟩
  · right; exact ⟨by omega, by rw [if_neg h]⟩

/-- A notice leaves everything but the link unit. -/
theorem notify_eq (s : State) (b : NoticeBody) : s.notify b = { s with lku := (s.notify b).lku } := by
  rcases notify_cases s b with h | h <;> rw [h.2]

theorem notify_requests (s : State) (b : NoticeBody) :
    (s.notify b).lku.requests = s.lku.requests ∧ (s.notify b).lku.executing = s.lku.executing
      ∧ (s.notify b).lku.replies = s.lku.replies ∧ (s.notify b).lku.conds = s.lku.conds
      ∧ (s.notify b).lku.rx = s.lku.rx ∧ (s.notify b).lku.tx = s.lku.tx := by
  rcases notify_cases s b with h | h <;> rw [h.2] <;> exact ⟨rfl, rfl, rfl, rfl, rfl, rfl⟩

/-! ### Fields (11 R171) -/

@[simp] theorem field_length (n : Nat) (v : Int) : (field n v).length = n := by simp [field]

theorem field_succ (n : Nat) (v : Int) :
    field (n + 1) v = BitVec.ofInt 8 (v / (256 : Int) ^ n) :: field n v := by
  simp [field, List.range_succ]

/-- A byte of a field is the quotient modulo 256. -/
theorem ofInt8_toNat (x : Int) : ((BitVec.ofInt 8 x).toNat : Int) = x % 256 := by
  rw [BitVec.toNat_ofInt]
  have : (0 : Int) ≤ x % 256 := Int.emod_nonneg _ (by decide)
  norm_num
  exact this

/-- Reading on from an accumulator. -/
theorem foldl_field (acc : Nat) (n : Nat) (v : Int) :
    (((field n v).foldl (fun a b => a * 256 + b.toNat) acc : Nat) : Int)
      = (acc : Int) * 256 ^ n + v % 256 ^ n := by
  induction n generalizing acc with
  | zero => simp [field]
  | succ n ih =>
    rw [field_succ, List.foldl_cons, ih]
    have e : ((acc * 256 + (BitVec.ofInt 8 (v / (256 : Int) ^ n)).toNat : Nat) : Int)
        = (acc : Int) * 256 + (v / (256 : Int) ^ n) % 256 := by
      rw [Nat.cast_add, Nat.cast_mul, ofInt8_toNat]; rfl
    have split : v % (256 : Int) ^ (n + 1)
        = v % 256 ^ n + 256 ^ n * (v / 256 ^ n % 256) := by
      rw [pow_succ]
      have h1 := Int.emod_add_mul_ediv v ((256 : Int) ^ n)
      have h2 := Int.emod_add_mul_ediv (v / (256 : Int) ^ n) 256
      have h3 := Int.emod_add_mul_ediv v ((256 : Int) ^ n * 256)
      have h4 : v / ((256 : Int) ^ n * 256) = v / 256 ^ n / 256 :=
        (Int.ediv_ediv_of_nonneg (by positivity)).symm
      rw [h4] at h3
      linear_combination h3 - h1 - (256 : Int) ^ n * h2
    rw [e, split, pow_succ]
    ring

/-- The unsigned value of a field of `n` bytes. -/
theorem fieldNat_field (n : Nat) (v : Int) : ((fieldNat (field n v) : Nat) : Int) = v % 256 ^ n := by
  have h := foldl_field 0 n v
  simpa [fieldNat] using h

/-- A value that fits is read back. -/
theorem fieldNat_of_lt {n v : Nat} (h : v < 256 ^ n) : fieldNat (field n (v : Int)) = v := by
  have e := fieldNat_field n (v : Int)
  rw [Int.emod_eq_of_lt (by positivity) (by exact_mod_cast h)] at e
  exact_mod_cast e

/-- A signed value that fits is read back. -/
theorem fieldInt_of_range {n : Nat} {v : Int} (lo : -(256 ^ n) ≤ 2 * v) (hi : 2 * v < 256 ^ n) :
    fieldInt (field n v) = v := by
  have e := fieldNat_field n v
  have pos : (0 : Int) < 256 ^ n := by positivity
  have cast : ((256 ^ n : Nat) : Int) = (256 : Int) ^ n := by push_cast; rfl
  unfold fieldInt
  simp only [field_length]
  by_cases hv : 0 ≤ v
  · rw [Int.emod_eq_of_lt hv (by omega)] at e
    rw [if_pos (by omega)]
    exact e
  · have hm : v % 256 ^ n = v + 256 ^ n := by
      rw [← Int.add_emod_right, Int.emod_eq_of_lt (by omega) (by omega)]
    rw [hm] at e
    rw [if_neg (by omega)]
    omega

end Sys2Proof.Machine
end

