-- ==== Sys2Proof/Laws/Tables.lean ====
section
/-! SUPPORT. What the operations on the tables do to a lookup: the strip table (08), the key table (04), the slots (01), the request queue (11), and what taking a key writes. -/
namespace Sys2Proof.Machine

/-! ### The strip table (08 R137) -/

theorem stripAt_index {s : State} {j : Nat} {r : Strip} (h : s.stripAt j = some r) : r.index = j := by
  have := List.find?_some h
  simpa using this

/-- A change of one record that keeps its index: that record is changed, every other lookup is as before. -/
theorem stripAt_updateStrip (s : State) (j k : Nat) (f : Strip → Strip)
    (hf : ∀ r : Strip, (f r).index = r.index) :
    (s.updateStrip j f).stripAt k = if k = j then (s.stripAt j).map f else s.stripAt k := by
  unfold State.stripAt
  rw [State.updateStrip_cvm, List.find?_map]
  have same : ((fun r : Strip => r.index == k) ∘ fun r : Strip => if r.index = j then f r else r)
      = fun r : Strip => r.index == k := by
    funext r
    simp only [Function.comp]
    split
    · rw [hf]
    · rfl
  rw [same]
  by_cases hk : k = j
  · subst hk
    rw [if_pos rfl]
    cases h : s.cvm.strips.find? (fun r => r.index == k) with
    | none => rfl
    | some r =>
      have : r.index = k := by simpa using List.find?_some h
      simp [this]
  · rw [if_neg hk]
    cases h : s.cvm.strips.find? (fun r => r.index == k) with
    | none => rfl
    | some r =>
      have : r.index = k := by simpa using List.find?_some h
      simp [this, hk]

/-- A removed strip is not in the table; every other lookup is as before. -/
theorem stripAt_removeStrip (s : State) (j k : Nat) :
    (s.removeStrip j).stripAt k = if k = j then none else s.stripAt k := by
  unfold State.stripAt State.removeStrip
  simp only [List.find?_filter]
  by_cases hk : k = j
  · subst hk
    rw [if_pos rfl, List.find?_eq_none]
    intro r _
    simp
  · rw [if_neg hk]
    congr 1
    funext r
    by_cases hr : r.index = k
    · simp [hr, hk]
    · simp [hr]

/-- A removed strip is not in the output queue. -/
theorem outQueue_removeStrip (s : State) (j : Nat) : j ∉ (s.removeStrip j).cvm.outQueue := by
  simp [State.removeStrip]

theorem find_insertStrip (r : Strip) (l : List Strip) (k : Nat)
    (h : l.find? (fun x => x.index == r.index) = none) :
    (insertStrip r l).find? (fun x => x.index == k)
      = if k = r.index then some r else l.find? (fun x => x.index == k) := by
  induction l with
  | nil =>
    by_cases hk : r.index = k
    · simp [insertStrip, hk]
    · rw [if_neg (fun e => hk e.symm)]; simp [insertStrip, hk]
  | cons x xs ih =>
    by_cases hx : x.index = r.index
    · rw [List.find?_cons_of_pos (by simp [hx])] at h
      cases h
    · rw [List.find?_cons_of_neg (by simp [hx])] at h
      unfold insertStrip
      split
      · by_cases hk : r.index = k
        · rw [List.find?_cons_of_pos (by simp [hk]), if_pos hk.symm]
        · rw [List.find?_cons_of_neg (by simp [hk]), if_neg (fun e => hk e.symm)]
      · by_cases hk : x.index = k
        · have : ¬ k = r.index := fun e => hx (hk.trans e)
          rw [List.find?_cons_of_pos (by simp [hk]), List.find?_cons_of_pos (by simp [hk]), if_neg this]
        · rw [List.find?_cons_of_neg (by simp [hk]), List.find?_cons_of_neg (by simp [hk]), ih h]

/-- A created strip is in the table as R139 gives it; every other lookup is as before. -/
theorem stripAt_createStrip {s : State} {j : Nat} (h : s.stripAt j = none) (k : Nat) :
    (s.createStrip j).stripAt k = if k = j then some (s.freshStrip j) else s.stripAt k := by
  have idx : (s.freshStrip j).index = j := by
    unfold State.freshStrip
    split <;> rfl
  have e := find_insertStrip (s.freshStrip j) s.cvm.strips k (by rw [idx]; exact h)
  rw [idx] at e
  exact e

/-! ### The key table (04 R60) -/

theorem keyAt_updateKey (s : State) (j k : Nat) (f : KeyRecord → KeyRecord) :
    (s.updateKey j f).swc.keys[k]? = if j = k then (s.swc.keys[k]?).map f else s.swc.keys[k]? := by
  rw [State.updateKey_swc, List.getElem?_modify]
  by_cases h : j = k
  · simp [h]
  · cases s.swc.keys[k]? <;> simp [h]

theorem keyAt_releaseKey (s : State) (j k : Nat) :
    (s.releaseKey j).swc.keys[k]?
      = if j = k then (s.swc.keys[k]?).map (fun r => { r with state := .released, slot := none })
        else s.swc.keys[k]? := by
  unfold State.releaseKey
  simp only
  split
  · rw [State.freeSlot_swc]; exact keyAt_updateKey s j k _
  · exact keyAt_updateKey s j k _

/-! ### The slots (01 R10) -/

theorem slotState_setSlotState (s : State) (i j : Fin 8) (st : SlotState) :
    (s.setSlotState i st).slotState j = if j = i then st else s.slotState j := by
  unfold State.slotState
  rw [State.setSlotState_igu, slots_get_set]
  split <;> rfl

theorem slotState_freeSlot (s : State) (i j : Fin 8) :
    (s.freeSlot i).slotState j = if j = i then .free else s.slotState j := by
  unfold State.slotState
  rw [State.freeSlot_igu, slots_get_set]
  split <;> rfl

/-! ### The request queue (11 R173) -/

/-- Everything that the receiver can do with a request: queue it, refuse it QUEUE_FULL, or drop it with REQUEST_LOST. -/
theorem takeRequest_cases (s : State) (r : Request) :
    (s.lku.requests.length < 8
        ∧ s.takeRequest r = { s with lku.requests := s.lku.requests ++ [r] })
      ∨ (8 ≤ s.lku.requests.length ∧ s.lku.placesTaken < 9
        ∧ s.takeRequest r = { s with lku.replies := s.lku.replies ++
            [{ type := replyType r.type, tag := r.tag, body := .result .queueFull }] })
      ∨ (8 ≤ s.lku.requests.length ∧ 9 ≤ s.lku.placesTaken ∧ s.takeRequest r = s.noteRequestLost) := by
  unfold State.takeRequest Config.requestPlaces Config.replyPlaces
  by_cases h : s.lku.requests.length < 8
  · exact .inl ⟨h, by rw [if_pos h]⟩
  · by_cases k : s.lku.placesTaken < 9
    · exact .inr (.inl ⟨by omega, k, by rw [if_neg h, if_pos k]⟩)
    · exact .inr (.inr ⟨by omega, by omega, by rw [if_neg h, if_neg k]⟩)

/-! ### Taking a key (04 R72) -/

theorem notifyKey_swc (s : State) (r : KeyRecord) :
    (s.notifyKey r).swc = { s.swc with framesPerKey := 0, gyroSinceKey := false } := by
  have h : (s.notify (.key s.swc.id r.index r.stored r.u r.v (placeU r.u) (placeV r.v) r.advance r.source
      r.flags r.inliers s.swc.framesPerKey)).swc = s.swc := by rw [notify_eq]
  unfold State.notifyKey
  simp only
  rw [h]

theorem startSeam_queue (s : State) : s.startSeam.smu.queue = s.smu.queue := by
  unfold State.startSeam
  split <;> rfl

/-- 06 R107: of the part the beginning of a seam job changes the seam unit alone. -/
theorem startSeam_eq (s : State) : s.startSeam = { s with smu := s.startSeam.smu } := by
  unfold State.startSeam; split <;> rfl

/-- What taking a key k ≥ 1 does to SWC and to the seam job queue. -/
theorem recordKey_effect (s : State) (r : KeyRecord) :
    (s.recordKey r).swc
        = { s.swc with keys := s.swc.keys ++ [r], framesPerKey := 0, gyroSinceKey := false }
      ∧ (s.recordKey r).smu.queue = s.smu.queue ++ [.ordinary r.index] := by
  have hswc : ((s.addKey r).queueSeam (.ordinary r.index)).swc = { s.swc with keys := s.swc.keys ++ [r] } :=
    (queueSeam_frame _ _).swc (by decide)
  constructor
  · unfold State.recordKey
    rw [notifyKey_swc, hswc]
  · unfold State.recordKey
    rw [(notifyKey_frame _ _).smu (by decide)]
    unfold State.queueSeam
    rw [startSeam_queue]
    rfl

/-! ### The end of a tracked frame (01 R12, 02 R23) -/

/-- Where a slot stands after it has moved to LAST or to KEY. -/
theorem slotState_moveToLast (s : State) (i : Fin 8) : (s.moveToLast i).slotState i = .last := by
  unfold State.moveToLast
  rw [slotState_setSlotState, if_pos rfl]

theorem slotState_moveToKey (s : State) (i : Fin 8) : (s.moveToKey i).slotState i = .key := by
  unfold State.moveToKey
  rw [slotState_setSlotState, if_pos rfl]

/-- Where a tracked frame's slot stands when its operation is over. -/
theorem slotState_closeFrame (s : State) (op : TrackOp) :
    (s.closeFrame op).slotState op.slot = if s.heldAsKey op.slot = true then .key else .last := by
  by_cases h : s.heldAsKey op.slot = true
  · rw [closeFrame_of_key h, if_pos h]; exact slotState_moveToKey s op.slot
  · rw [closeFrame_of_other (Bool.eq_false_iff.mpr h), if_neg h]; exact slotState_moveToLast s op.slot

/-! ### The bytes of the link (11 R170) -/

/-- A transaction that sends no message shifts nothing out of a queue. -/
theorem shiftByte_idle {s : State} (h : s.lku.tx = .undriven ∨ s.lku.tx = .nothing) : s.shiftByte = s := by
  unfold State.shiftByte
  rcases h with h | h <;> rw [h]

/-- A message of which one byte is left leaves its queue with that byte. -/
theorem shiftByte_last {s : State} {b : Byte} :
    (s.lku.tx = .reply [b] → s.shiftByte = { s with lku.replies := s.lku.replies.tail, lku.tx := .nothing })
      ∧ (s.lku.tx = .notice [b] → s.shiftByte = { s with lku.notices := s.lku.notices.tail, lku.tx := .nothing })
      ∧ (s.lku.tx = .lost [b] → s.shiftByte = { s with lku.tx := .nothing }) := by
  refine ⟨fun h => ?_, fun h => ?_, fun h => ?_⟩ <;> (unfold State.shiftByte; rw [h])

/-- A message of which more than one byte is left stays in its queue. -/
theorem shiftByte_more {s : State} {a b : Byte} {rest : List Byte} :
    (s.lku.tx = .reply (a :: b :: rest) → s.shiftByte = { s with lku.tx := .reply (b :: rest) })
      ∧ (s.lku.tx = .notice (a :: b :: rest) → s.shiftByte = { s with lku.tx := .notice (b :: rest) })
      ∧ (s.lku.tx = .lost (a :: b :: rest) → s.shiftByte = { s with lku.tx := .lost (b :: rest) }) := by
  refine ⟨fun h => ?_, fun h => ?_, fun h => ?_⟩ <;> (unfold State.shiftByte; rw [h])

/-! ### The beats of the strip output port (09 R155, R156) -/

/-- Everything that one beat's time can do: nothing while SOP_RDY is low; a beat of the line in progress; the start of the trailer; or nothing. -/
theorem tick_cases (s : State) :
    (s.pins.sopRdy = false ∧ s.tick = s)
      ∨ (s.pins.sopRdy = true ∧ s.pins.sopLv = true ∧ s.tick = s.presentBeat)
      ∨ (s.pins.sopRdy = true ∧ s.pins.sopLv = false
          ∧ (s.tick = s ∨ ∃ x n, s.tick = s.beginTrailer x n)) := by
  unfold State.tick
  by_cases h : s.pins.sopRdy = true
  · rw [if_pos h]
    by_cases k : s.pins.sopLv = true
    · exact .inr (.inl ⟨h, k, if_pos k⟩)
    · refine .inr (.inr ⟨h, Bool.eq_false_iff.mpr k, ?_⟩)
      rw [if_neg k]
      split
      · split
        · exact .inr ⟨_, _, rfl⟩
        · exact .inl rfl
      · exact .inr ⟨_, _, rfl⟩
      · exact .inl rfl
  · exact .inl ⟨Bool.eq_false_iff.mpr h, if_neg h⟩

end Sys2Proof.Machine
end

