-- ==== Sys2Proof/Laws/Commits.lean ====
section
/-! SUPPORT. What the seam unit and the blend unit do when a job leaves, a commit enters, begins or is followed by the next: the lemmas that the statements about `State.CommitBegun` and `State.NextSeamBegun` rest on. -/
namespace Sys2Proof.Machine

/-! ### The least entry of a seam (07 R125) -/

theorem foldl_min_le (l : List Int) (x : Int) : l.foldl min x ≤ x ∧ ∀ y ∈ l, l.foldl min x ≤ y := by
  induction l generalizing x with
  | nil => simp
  | cons a t ih =>
    have := ih (min x a)
    refine ⟨le_trans this.1 (min_le_left _ _), fun y hy => ?_⟩
    rcases List.mem_cons.mp hy with h | h
    · subst h; exact le_trans this.1 (min_le_right _ _)
    · exact this.2 y h

theorem foldl_min_mem (l : List Int) (x : Int) : l.foldl min x = x ∨ l.foldl min x ∈ l := by
  induction l generalizing x with
  | nil => simp
  | cons a t ih =>
    rcases ih (min x a) with h | h
    · simp only [List.foldl_cons, h]
      rcases min_choice x a with k | k <;> simp [k]
    · right; simp only [List.foldl_cons]; exact List.mem_cons_of_mem _ h

/-- `leastInt` gives the least entry. -/
theorem leastInt_eq {d m : Int} {l : List Int} (hm : m ∈ l) (h : ∀ x ∈ l, m ≤ x) : leastInt d l = m := by
  cases l with
  | nil => cases hm
  | cons x xs =>
    show xs.foldl min x = m
    have hle := foldl_min_le xs x
    apply le_antisymm
    · rcases List.mem_cons.mp hm with e | e
      · rw [e]; exact hle.1
      · exact hle.2 m e
    · rcases foldl_min_mem xs x with e | e
      · rw [e]; exact h x (by simp)
      · exact h _ (List.mem_cons_of_mem _ e)

/-! ### A commit begins (07 R123, R125, R126, R135) -/

/-- `spanEnd` is the end that R125, R126 and R135 give. -/
theorem spanEnd_ends (s : State) (c : Commit) : s.SpanEnds c (s.spanEnd c) := by
  intro q hq
  have hk : s.keyOr c.key = q := by simp [State.keyOr, State.keyAt, hq]
  unfold State.spanEnd
  simp only [hk]
  refine ⟨fun h l m hs hm hl => ?_, fun h hs => ?_, fun h => ?_, fun h um hum => ?_⟩
  · rw [h, hs]
    cases l with
    | nil => cases hm
    | cons x xs => simp only [leastInt_eq hm hl]
  · rw [h, hs]
  · rw [h]
  · rw [h, hum]; rfl

/-- 07 R123: the commit at the head of the queue begins. -/
theorem beginCommit_begun {s : State} {c : Commit} {rest : List Commit} (h : s.blu.queue = c :: rest) :
    s.beginCommit.CommitBegun c := by
  unfold State.beginCommit
  rw [h]
  exact ⟨rfl, s.spanEnd c, spanEnd_ends s c, rfl⟩

theorem beginCommit_blu (s : State) :
    s.beginCommit.blu.frontier = s.blu.frontier ∧ s.beginCommit.blu.queue = s.blu.queue
      ∧ (s.blu.queue = [] → s.beginCommit.blu.state = .idle ∧ s.beginCommit.blu.run = none) := by
  unfold State.beginCommit
  split
  · exact ⟨rfl, rfl, fun _ => ⟨rfl, rfl⟩⟩
  · rename_i h; exact ⟨rfl, rfl, fun k => by rw [h] at k; cases k⟩

/-- What begins with a commit stays, over steps that keep what it rests on. -/
theorem State.CommitBegun.of_same {s t : State} {c : Commit} (h : s.CommitBegun c) (hb : t.blu = s.blu)
    (hc : t.cvm.um = s.cvm.um) (hg : t.swc.config = s.swc.config) (hk : t.swc.keys = s.swc.keys) :
    t.CommitBegun c := by
  obtain ⟨h1, hi, h2, h3⟩ := h
  have hcfg : t.cfg = s.cfg := by unfold State.cfg; rw [hg]
  refine ⟨by rw [hb]; exact h1, hi, ?_, by rw [hb, hcfg, hc]; exact h3⟩
  unfold State.SpanEnds at *
  rw [hk, hcfg, hc]; exact h2

theorem settle_config (s : State) : s.settle.swc.config = s.swc.config := by
  rcases settle_swc s with h | ⟨_, h⟩ | ⟨_, _, h⟩ <;> rw [h]

theorem State.CommitBegun.settled {s : State} {c : Commit} (h : s.CommitBegun c) : s.settle.CommitBegun c :=
  h.of_same (settle_blu s) (by rw [settle_cvm]) (settle_config s) (settle_keys s)

/-! ### A commit enters (07 R122, R123, R126) -/

theorem enterCommit_eq (s : State) (c : Commit) : s.enterCommit c = { s with blu := (s.enterCommit c).blu } := by
  unfold State.enterCommit State.beginCommit
  simp only
  split
  · split <;> rfl
  · rfl

/-- Everything that the entry of a commit does to BLU but the beginning: the place, the counts, and, behind another commit, that one's run. -/
theorem enterCommit_blu (s : State) (c : Commit) :
    (s.enterCommit c).blu.queue = s.blu.queue ++ [c]
      ∧ (s.enterCommit c).blu.frontier = s.blu.frontier
      ∧ (s.enterCommit c).blu.entered = s.blu.entered + (if c.kind = .ordinary then 1 else 0)
      ∧ (s.enterCommit c).blu.finalEntered = (s.blu.finalEntered || decide (c.kind ≠ .ordinary))
      ∧ (s.blu.queue ≠ [] →
          (s.enterCommit c).blu.run = s.blu.run ∧ (s.enterCommit c).blu.state = s.blu.state) := by
  unfold State.enterCommit State.beginCommit
  by_cases h : s.blu.queue = [] <;> simp [h]

theorem enterCommit_begun {s : State} (c : Commit) (h : s.blu.queue = []) : (s.enterCommit c).CommitBegun c := by
  unfold State.enterCommit
  rw [if_pos h]
  exact beginCommit_begun (rest := []) (by simp [h])

/-! ### A job leaves (06 R107, R118) -/

/-- 06 R107, R119: with no job running, the ordinary job at the head begins and a closure job waits. -/
theorem startSeam_begun {s : State} (h : s.smu.run = none) : s.startSeam.NextSeamBegun := by
  unfold State.NextSeamBegun
  rw [startSeam_queue]
  unfold State.startSeam
  refine ⟨fun k more e => ?_, fun n more e => ?_, fun e => ?_⟩ <;> simp [h, e]

theorem leaveSeam_begun (s : State) (job : SeamJob) (rest : List SeamJob) :
    (s.leaveSeam job rest).NextSeamBegun := startSeam_begun rfl

theorem State.NextSeamBegun.of_smu {s t : State} (h : s.NextSeamBegun) (e : t.smu = s.smu) : t.NextSeamBegun := by
  unfold State.NextSeamBegun at *; rw [e]; exact h

theorem leaveSeam_eq (s : State) (job : SeamJob) (rest : List SeamJob) :
    s.leaveSeam job rest = { s with smu := (s.leaveSeam job rest).smu } := by
  unfold State.leaveSeam
  exact startSeam_eq _

end Sys2Proof.Machine
end

