-- ==== Sys2Proof/Laws/Memory.lean ====
section
/-! SUPPORT. Buffer memory and the error marks (10): a read after a write, and that every operation keeps the canonical form. -/
namespace Sys2Proof.Machine

/-! ### Keys in rising order -/

theorem keysAbove_cons {β : Type} (lo k : Nat) (v : β) (rest : List (Nat × β)) :
    keysAbove lo ((k, v) :: rest) = true ↔ lo ≤ k ∧ keysAbove (k + 1) rest = true := by
  simp [keysAbove]

theorem keysAbove_mono {β : Type} {lo lo' : Nat} (l : List (Nat × β)) (h : lo ≤ lo')
    (k : keysAbove lo' l = true) : keysAbove lo l = true := by
  cases l with
  | nil => rfl
  | cons e rest =>
    obtain ⟨key, v⟩ := e
    rw [keysAbove_cons] at *
    exact ⟨Nat.le_trans h k.1, k.2⟩

/-! ### Bytes -/

/-- A list whose keys are all above an address says nothing of it. -/
theorem readByte_below {lo : Nat} (m : List Host.Cell) (h : keysAbove lo m = true) (a : Nat) (ha : a < lo) :
    readByte m a = powerUpByte := by
  induction m generalizing lo with
  | nil => rfl
  | cons e rest ih =>
    obtain ⟨k, v⟩ := e
    rw [keysAbove_cons] at h
    have : k ≠ a := by omega
    simp only [readByte, if_neg this]
    exact ih h.2 (by omega)

/-- 10: the byte read after a write of one byte. -/
theorem readByte_writeByte {lo : Nat} (m : List Host.Cell) (h : keysAbove lo m = true) (a b : Nat)
    (v : Byte) : readByte (writeByte m a v) b = if b = a then v else readByte m b := by
  induction m generalizing lo with
  | nil =>
    by_cases hv : v = powerUpByte
    · simp only [writeByte, if_pos hv, readByte]
      split
      · exact hv.symm
      · rfl
    · simp only [writeByte, if_neg hv, readByte]
      by_cases e : a = b
      · simp [e]
      · simp [e, Ne.symm e]
  | cons e rest ih =>
    obtain ⟨k, w⟩ := e
    rw [keysAbove_cons] at h
    simp only [writeByte]
    by_cases h1 : a < k
    · rw [if_pos h1]
      by_cases hv : v = powerUpByte
      · rw [if_pos hv]
        by_cases e : b = a
        · subst e
          rw [if_pos rfl, hv]
          have hk : k ≠ b := by omega
          simp only [readByte, if_neg hk]
          exact readByte_below rest h.2 b (by omega)
        · rw [if_neg e]
      · rw [if_neg hv]
        simp only [readByte]
        by_cases e : b = a
        · simp [e]
        · rw [if_neg (Ne.symm e), if_neg e]
    · rw [if_neg h1]
      by_cases h2 : a = k
      · subst h2
        rw [if_pos rfl]
        by_cases hv : v = powerUpByte
        · rw [if_pos hv]
          by_cases e : b = a
          · subst e
            rw [if_pos rfl, hv]
            exact readByte_below rest h.2 b (by omega)
          · rw [if_neg e]; simp only [readByte, if_neg (Ne.symm e)]
        · rw [if_neg hv]
          simp only [readByte]
          by_cases e : b = a
          · simp [e]
          · rw [if_neg (Ne.symm e), if_neg e, if_neg (Ne.symm e)]
      · rw [if_neg h2]
        simp only [readByte, ih h.2]
        by_cases e : k = b
        · rw [if_pos e, if_pos e, if_neg (by omega)]
        · rw [if_neg e, if_neg e]

theorem writeByte_keysAbove (lo : Nat) (m : List Host.Cell) (h : keysAbove lo m = true) (a : Nat)
    (v : Byte) : keysAbove (min lo a) (writeByte m a v) = true := by
  induction m generalizing lo with
  | nil =>
    simp only [writeByte]; split
    · rfl
    · simp [keysAbove]
  | cons e rest ih =>
    obtain ⟨k, w⟩ := e
    have h' := (keysAbove_cons _ _ _ _).mp h
    simp only [writeByte]
    split
    · split
      · exact keysAbove_mono _ (Nat.min_le_left _ _) h
      · rw [keysAbove_cons, keysAbove_cons]; exact ⟨Nat.min_le_right _ _, by omega, h'.2⟩
    · split
      · rename_i h2
        split
        · exact keysAbove_mono _ (by omega) h'.2
        · rw [keysAbove_cons]; exact ⟨by omega, h2 ▸ h'.2⟩
      · rw [keysAbove_cons]
        refine ⟨by omega, ?_⟩
        have := ih (k + 1) h'.2
        rwa [Nat.min_eq_left (by omega)] at this

theorem writeByte_nonzero (m : List Host.Cell) (a : Nat) (v : Byte)
    (h : m.all (fun c => decide (c.2 ≠ powerUpByte)) = true) :
    (writeByte m a v).all (fun c => decide (c.2 ≠ powerUpByte)) = true := by
  induction m with
  | nil =>
    simp only [writeByte]; split
    · rfl
    · rename_i hv; simp [hv]
  | cons e rest ih =>
    obtain ⟨k, w⟩ := e
    simp only [List.all_cons, Bool.and_eq_true] at h
    simp only [writeByte]
    repeat' split
    · simpa using h
    · rename_i hv; simpa [hv] using h
    · exact h.2
    · rename_i hv; simpa [hv] using h.2
    · rw [List.all_cons, Bool.and_eq_true]; exact ⟨h.1, ih h.2⟩

/-- A byte written keeps the canonical form. -/
theorem writeByte_wf (m : List Host.Cell) (a : Nat) (v : Byte) (h : Memory.wf m = true) :
    Memory.wf (writeByte m a v) = true := by
  unfold Memory.wf at *
  rw [Bool.and_eq_true] at *
  exact ⟨keysAbove_mono _ (Nat.zero_le _) (writeByte_keysAbove 0 m h.1 a v), writeByte_nonzero m a v h.2⟩

theorem wf_keysAbove {m : List Host.Cell} (h : Memory.wf m = true) : keysAbove 0 m = true :=
  ((Bool.and_eq_true _ _).mp h).1

/-- A word written keeps the canonical form. -/
theorem writeBytes_wf (bs : List (Option Byte)) (m : List Host.Cell) (a : Nat) (h : Memory.wf m = true) :
    Memory.wf (writeBytes m a bs) = true := by
  induction bs generalizing m a with
  | nil => exact h
  | cons b rest ih =>
    cases b with
    | none => exact ih m (a + 1) h
    | some v => exact ih _ (a + 1) (writeByte_wf m a v h)

/-- A write leaves every byte outside its span as it was. -/
theorem readByte_writeBytes_outside (bs : List (Option Byte)) (m : List Host.Cell) (a b : Nat)
    (h : Memory.wf m = true) (hb : b < a ∨ a + bs.length ≤ b) :
    readByte (writeBytes m a bs) b = readByte m b := by
  induction bs generalizing m a with
  | nil => rfl
  | cons x rest ih =>
    simp only [List.length_cons] at hb
    cases x with
    | none => exact ih m (a + 1) h (by omega)
    | some v =>
      have e := ih (writeByte m a v) (a + 1) (writeByte_wf m a v h) (by omega)
      simp only [writeBytes]
      rw [e, readByte_writeByte m (wf_keysAbove h), if_neg (by omega)]

/-- A write stores each byte it gives, and leaves each it does not give. -/
theorem readByte_writeBytes_inside (bs : List (Option Byte)) (m : List Host.Cell) (a k : Nat)
    (h : Memory.wf m = true) (x : Option Byte) (hx : bs[k]? = some x) :
    readByte (writeBytes m a bs) (a + k) = x.getD (readByte m (a + k)) := by
  induction bs generalizing m a k with
  | nil => simp at hx
  | cons y rest ih =>
    cases k with
    | zero =>
      simp only [List.getElem?_cons_zero, Option.some.injEq] at hx
      subst hx
      cases y with
      | none =>
        simp only [writeBytes, Option.getD_none]
        exact readByte_writeBytes_outside rest m (a + 1) _ h (by omega)
      | some v =>
        simp only [writeBytes, Option.getD_some]
        rw [readByte_writeBytes_outside rest _ (a + 1) _ (writeByte_wf m a v h) (by omega),
          readByte_writeByte m (wf_keysAbove h)]
        simp
    | succ n =>
      simp only [List.getElem?_cons_succ] at hx
      have e : a + (n + 1) = a + 1 + n := by omega
      cases y with
      | none => simp only [writeBytes]; rw [e]; exact ih m (a + 1) n h hx
      | some v =>
        simp only [writeBytes]
        rw [e, ih _ (a + 1) n (writeByte_wf m a v h) hx, readByte_writeByte m (wf_keysAbove h),
          if_neg (by omega)]

/-! ### Error marks -/

theorem markOf_below {lo : Nat} (l : List (Nat × WordMark)) (h : keysAbove lo l = true) (w : Nat)
    (hw : w < lo) : markOf l w = none := by
  induction l generalizing lo with
  | nil => rfl
  | cons e rest ih =>
    obtain ⟨k, v⟩ := e
    rw [keysAbove_cons] at h
    simp only [markOf, if_neg (show k ≠ w by omega)]
    exact ih h.2 (by omega)

/-- The mark of a word once it is set. -/
theorem markOf_setMark (l : List (Nat × WordMark)) (w : Nat) (x : WordMark) (u : Nat) :
    markOf (setMark l w x) u = if u = w then some x else markOf l u := by
  induction l with
  | nil =>
    simp only [setMark, markOf]
    by_cases e : w = u
    · simp [e]
    · simp [e, Ne.symm e]
  | cons e rest ih =>
    obtain ⟨k, v⟩ := e
    simp only [setMark]
    repeat' split
    all_goals (simp only [markOf]; try rw [ih]; try simp)
    all_goals (repeat' split) <;> (try omega) <;> (try rfl)

/-- The mark of a word once it is cleared. -/
theorem markOf_clearMark {lo : Nat} (l : List (Nat × WordMark)) (h : keysAbove lo l = true) (w u : Nat) :
    markOf (clearMark l w) u = if u = w then none else markOf l u := by
  induction l generalizing lo with
  | nil => simp [clearMark, markOf]
  | cons e rest ih =>
    obtain ⟨k, v⟩ := e
    rw [keysAbove_cons] at h
    simp only [clearMark]
    split
    · rename_i hk
      subst hk
      simp only [markOf]
      by_cases e : u = k
      · subst e; rw [if_pos rfl]; exact markOf_below rest h.2 u (by omega)
      · rw [if_neg e, if_neg (Ne.symm e)]
    · rename_i hk
      simp only [markOf, ih h.2]
      by_cases e : k = u
      · rw [if_pos e, if_pos e, if_neg (by omega)]
      · rw [if_neg e, if_neg e]

theorem setMark_keysAbove (lo : Nat) (l : List (Nat × WordMark)) (h : keysAbove lo l = true) (w : Nat)
    (x : WordMark) : keysAbove (min lo w) (setMark l w x) = true := by
  induction l generalizing lo with
  | nil => simp [setMark, keysAbove]
  | cons e rest ih =>
    obtain ⟨k, v⟩ := e
    have h' := (keysAbove_cons _ _ _ _).mp h
    simp only [setMark]
    split
    · rw [keysAbove_cons, keysAbove_cons]; exact ⟨Nat.min_le_right _ _, by omega, h'.2⟩
    · split
      · rename_i h2; rw [keysAbove_cons]; exact ⟨by omega, h2 ▸ h'.2⟩
      · rw [keysAbove_cons]
        refine ⟨by omega, ?_⟩
        have := ih (k + 1) h'.2
        rwa [Nat.min_eq_left (by omega)] at this

theorem clearMark_keysAbove (lo : Nat) (l : List (Nat × WordMark)) (h : keysAbove lo l = true) (w : Nat) :
    keysAbove lo (clearMark l w) = true := by
  induction l generalizing lo with
  | nil => rfl
  | cons e rest ih =>
    obtain ⟨k, v⟩ := e
    have h' := (keysAbove_cons _ _ _ _).mp h
    simp only [clearMark]
    split
    · exact keysAbove_mono _ (by omega) h'.2
    · rw [keysAbove_cons]; exact ⟨h'.1, ih _ h'.2⟩

/-- A mark set or cleared keeps the order of the marks. -/
theorem setMark_canonical (l : List (Nat × WordMark)) (h : keysAbove 0 l = true) (w : Nat) (x : WordMark) :
    keysAbove 0 (setMark l w x) = true := by
  have := setMark_keysAbove 0 l h w x
  rwa [Nat.zero_min] at this

/-- 10 R165: what a read leaves as the mark of each word: of its own word the outcome where there was an error, of every other word what was there. -/
theorem markOf_markAfterRead (l : List (Nat × WordMark)) (w : Nat) (o : EccOutcome) (u : Nat) :
    markOf (markAfterRead l w o) u =
      if u = w then
        match o with
        | .clean => markOf l w
        | .singleBit => some .singleBit
        | .uncorrectable => some .uncorrectable
      else markOf l u := by
  cases o
  · show markOf l u = _
    split
    · rename_i h; rw [h]
    · rfl
  · exact markOf_setMark l w _ u
  · exact markOf_setMark l w _ u

/-- 10 R165: a read keeps the order of the marks. -/
theorem markAfterRead_canonical (l : List (Nat × WordMark)) (h : keysAbove 0 l = true) (w : Nat)
    (o : EccOutcome) : keysAbove 0 (markAfterRead l w o) = true := by
  cases o
  · exact h
  · exact setMark_canonical l h w _
  · exact setMark_canonical l h w _

/-- Memory at reset is in its canonical form. -/
theorem reset_memory_wf : Memory.wf State.reset.mem = true ∧ keysAbove 0 State.reset.ecc = true := by
  decide

end Sys2Proof.Machine
end

