-- ==== Sys2Proof/Laws/Notices.lean ====
section
/-! SUPPORT. Which notice an operation queues, and that the operations after it keep it (11 R176): for `notify`, the end of a sweep, a change of session state, the taking of a key, step 5 of 04 R66 and `settle`. -/
namespace Sys2Proof.Machine

/-! ### Notices stay -/

/-- From `s` to `t` notices are only added, and a set NOTICE_LOST stays set. -/
def State.NoticesKept (s t : State) : Prop :=
  (∃ l, t.lku.notices = s.lku.notices ++ l) ∧ (s.lku.flags.noticeLost = true → t.lku.flags.noticeLost = true)

theorem State.NoticesKept.refl (s : State) : s.NoticesKept s := ⟨⟨[], by simp⟩, id⟩

theorem State.NoticesKept.trans {s t u : State} (h : s.NoticesKept t) (k : t.NoticesKept u) : s.NoticesKept u := by
  obtain ⟨⟨l, hl⟩, hf⟩ := h
  obtain ⟨⟨m, hm⟩, kf⟩ := k
  exact ⟨⟨l ++ m, by rw [hm, hl, List.append_assoc]⟩, fun x => kf (hf x)⟩

/-- An operation that leaves the link unit keeps the notices. -/
theorem State.NoticesKept.of_lku {s t : State} (h : t.lku = s.lku) : s.NoticesKept t := by
  unfold State.NoticesKept; rw [h]; exact ⟨⟨[], by simp⟩, id⟩

theorem State.NoticesKept.left {s u t : State} (h : u.lku = s.lku) (k : u.NoticesKept t) : s.NoticesKept t := by
  unfold State.NoticesKept at *; rw [h] at k; exact k

theorem State.Noticed.kept {s t u : State} {b : NoticeBody} (h : s.Noticed t b) (k : t.NoticesKept u) :
    s.Noticed u b := by
  obtain ⟨⟨l, hl⟩, hf⟩ := k
  refine ⟨fun x => ?_, fun x => hf (h.2 x)⟩
  obtain ⟨n, hn, e⟩ := h.1 x
  exact ⟨n, by rw [hl]; exact List.mem_append_left _ hn, e⟩

theorem State.Noticed.of_lku {s s' t : State} {b : NoticeBody} (h : s.Noticed t b) (e : s'.lku = s.lku) :
    s'.Noticed t b := by unfold State.Noticed; rw [e]; exact h

theorem State.NoticedNext.kept {s t u : State} {b : NoticeBody} (h : s.NoticedNext t b) (k : t.NoticesKept u) :
    s.NoticedNext u b := by
  obtain ⟨⟨l, hl⟩, hf⟩ := k
  refine ⟨fun x => ?_, fun x => hf (h.2 x)⟩
  obtain ⟨n, hn, e⟩ := h.1 x
  exact ⟨n, by rw [hl]; exact List.mem_append_left _ hn, e⟩

/-! ### One notice, and the one after it -/

theorem notify_notices (s : State) (b : NoticeBody) : s.NoticesKept (s.notify b) := by
  rcases notify_cases s b with h | h <;> rw [h.2]
  · exact ⟨⟨_, rfl⟩, id⟩
  · exact ⟨⟨[], by simp⟩, fun _ => rfl⟩

/-- 11 R176: `notify` queues its notice or sets NOTICE_LOST. -/
theorem notify_noticed (s : State) (b : NoticeBody) : s.Noticed (s.notify b) b := by
  rcases notify_cases s b with h | h <;> rw [h.2]
  · exact ⟨fun _ => ⟨{ seq := s.lku.seq, body := b }, by simp, rfl, rfl⟩, fun k => by omega⟩
  · exact ⟨fun k => by omega, fun _ => rfl⟩

/-- 11 R176: a second notice takes the number after the first one's. -/
theorem notify_noticedNext {s t : State} {a : NoticeBody} (h : t.lku = (s.notify a).lku) (b : NoticeBody) :
    s.NoticedNext (t.notify b) b := by
  rcases notify_cases s a with k | k <;> rw [k.2] at h
  · have : t.lku.notices.length = s.lku.notices.length + 1 := by rw [h]; simp
    rcases notify_cases t b with m | m <;> rw [m.2]
    · exact ⟨fun _ => ⟨{ seq := t.lku.seq, body := b }, by simp, by show t.lku.seq = _; rw [h], rfl⟩,
        fun _ => by omega⟩
    · exact ⟨fun _ => by omega, fun _ => rfl⟩
  · exact ⟨fun _ => by omega, fun _ => (notify_notices t b).2 (by rw [h])⟩

/-! ### The session (05 R89, R99, R100) -/

/-- 05 R89: a change of session state is noticed. -/
theorem enterState_noticed (s : State) (a : SessionState) :
    s.Noticed (s.enterState a) (.session s.swc.id s.swc.state a
      (if a = .finishing ∨ a = .done then s.swc.endCause else none) s.swc.decided s.swc.keys.length
      s.igu.nextStored) := by
  unfold State.enterState State.notifySession
  exact State.Noticed.of_lku (s := { s with swc.state := a }) (notify_noticed _ _) rfl

theorem enterState_notices (s : State) (a : SessionState) : s.NoticesKept (s.enterState a) := by
  unfold State.enterState State.notifySession
  exact State.NoticesKept.left (by rfl) (notify_notices _ _)

/-- 05 R99: the end of a sweep does to the link unit what its SESSION notice does. -/
theorem endSweep_lku {s : State} (h : s.storing = true) (c : EndCause) :
    (s.endSweep c).lku = (s.notify (.session s.swc.id s.swc.state .finishing (some c) s.swc.decided
      s.swc.keys.length s.igu.nextStored)).lku := by
  have drop : ∀ x : State, x.discardFrames.dropProvisional.lku = x.lku := by
    intro x
    rw [← (discardFrames_frame x).lku (by decide)]
    unfold State.dropProvisional
    split
    · unfold State.freeReference; split <;> rfl
    · rfl
  unfold State.endSweep
  rw [if_pos h, drop]
  unfold State.enterState State.notifySession
  simp [State.notify]
  split <;> rfl

/-- 05 R99: an end cause taken in a storing state is noticed. -/
theorem endSweep_noticed {s : State} (h : s.storing = true) (c : EndCause) :
    s.Noticed (s.endSweep c) (.session s.swc.id s.swc.state .finishing (some c) s.swc.decided
      s.swc.keys.length s.igu.nextStored) :=
  (notify_noticed _ _).kept (.of_lku (endSweep_lku h c))

theorem endSweep_notices (s : State) (c : EndCause) : s.NoticesKept (s.endSweep c) := by
  by_cases h : s.storing = true
  · exact (notify_notices s _).trans (.of_lku (endSweep_lku h c))
  · rw [endSweep_of_not_storing (Bool.not_eq_true _ ▸ h)]; exact .refl _

theorem finishFrame_lku (s : State) : s.finishFrame.lku = s.lku := (finishFrame_frame s).lku (by decide)

theorem finishFrame_notices (s : State) : s.NoticesKept s.finishFrame := .of_lku (finishFrame_lku s)

theorem settle_notices (s : State) : s.NoticesKept s.settle := by
  refine State.NoticesKept.trans (t := s.checkDone) ?_ (.of_lku rfl)
  unfold State.checkDone
  split
  · refine .left ?_ (enterState_notices _ _)
    split
    · unfold State.dropLast; exact (freeSlots_frame _ _).lku (by decide)
    · rfl
  · exact .refl _

/-! ### Step 5 (04 R66) -/

theorem windowStep_notices (s : State) (op : TrackOp) (r : FrameResult) : s.NoticesKept (s.windowStep op r) := by
  unfold State.windowStep
  simp only
  split
  · split
    · exact (State.NoticesKept.left (by rfl) (enterState_notices _ _)).trans (finishFrame_notices _)
    · split
      · exact ((endSweep_notices s .closureMissed).trans (.left (by rfl) (notify_notices _ _))).trans (finishFrame_notices _)
      · exact finishFrame_notices _
  · exact finishFrame_notices _

theorem stallStep_notices (s : State) (op : TrackOp) (r : FrameResult) : s.NoticesKept (s.stallStep op r) := by
  unfold State.stallStep
  simp only
  split
  · exact .left (by rfl) (windowStep_notices _ _ _)
  · split
    · exact .of_lku rfl
    · exact .left (by rfl) (windowStep_notices _ _ _)

theorem paceStep_notices (s : State) (op : TrackOp) (r : FrameResult) : s.NoticesKept (s.paceStep op r) := by
  unfold State.paceStep
  simp only
  split
  · exact .left (by rfl) (stallStep_notices _ _ _)
  · split
    · exact .of_lku rfl
    · exact .left (by rfl) (stallStep_notices _ _ _)

/-! ### The taking of a key (04 R72, R73) -/

theorem queueSeam_eq (s : State) (j : SeamJob) : s.queueSeam j = { s with smu := (s.queueSeam j).smu } := by
  unfold State.queueSeam; exact startSeam_eq _

/-- 06 R106, R107: a job joins the queue; an ordinary one begins on entering an empty queue, and a running one runs on. -/
theorem queueSeam_smu (s : State) (j : SeamJob) :
    (s.queueSeam j).smu.queue = s.smu.queue ++ [j]
      ∧ (s.smu.run ≠ none → (s.queueSeam j).smu.run = s.smu.run)
      ∧ (∀ k, j = .ordinary k → s.smu.queue = [] → (s.queueSeam j).smu.run = some (s.smu.run.getD {})) := by
  refine ⟨startSeam_queue _, fun h => ?_, fun k e h => ?_⟩
  · unfold State.queueSeam State.startSeam
    cases hr : s.smu.run with
    | none => exact absurd hr h
    | some r => simp [hr]
  · unfold State.queueSeam State.startSeam
    cases hr : s.smu.run <;> simp [h, e]
    exact hr

/-- 04 R72 steps 1, 5, 7: what a key's record changes beside the seam unit and the link unit. -/
theorem recordKey_eq (s : State) (k : KeyRecord) : s.recordKey k = { s with
    swc := { s.swc with keys := s.swc.keys ++ [k], framesPerKey := 0, gyroSinceKey := false }
    smu := (s.recordKey k).smu, lku := (s.recordKey k).lku } := by
  unfold State.recordKey State.notifyKey
  rw [notify_eq, queueSeam_eq]
  rfl

theorem recordKey_smu (s : State) (k : KeyRecord) :
    (s.recordKey k).smu = ((s.addKey k).queueSeam (.ordinary k.index)).smu := by
  unfold State.recordKey; exact (notifyKey_frame _ _).smu (by decide)

/-- 04 R73: the taking of a key does to the link unit what its KEY notice does. -/
theorem recordKey_lku (s : State) (k : KeyRecord) :
    (s.recordKey k).lku = (s.notify (.key s.swc.id k.index k.stored k.u k.v (placeU k.u) (placeV k.v) k.advance
      k.source k.flags k.inliers s.swc.framesPerKey)).lku := by
  unfold State.recordKey State.notifyKey
  rw [queueSeam_eq]
  generalize ((s.addKey k).queueSeam (SeamJob.ordinary k.index)).smu = z
  by_cases h : s.lku.notices.length < Config.noticePlaces <;> simp [State.notify, State.addKey, h]

theorem recordKey_noticed (s : State) (k : KeyRecord) :
    s.Noticed (s.recordKey k) (.key s.swc.id k.index k.stored k.u k.v (placeU k.u) (placeV k.v) k.advance
      k.source k.flags k.inliers s.swc.framesPerKey) :=
  (notify_noticed _ _).kept (.of_lku (recordKey_lku s k))

/-- 05 R87: the pending set replaces the values in force and becomes absent. -/
theorem applyPending_eq (s : State) : s.applyPending = { s with swc := { s.swc with
    config := match s.swc.pendingTunables with
      | some u => s.swc.config.map (fun c => c.tune u)
      | none => s.swc.config
    pendingTunables := none } } := by
  unfold State.applyPending
  cases hp : s.swc.pendingTunables with
  | none =>
    have : s.swc = { s.swc with pendingTunables := none } := by rw [← hp]
    show s = { s with swc := { s.swc with pendingTunables := none } }
    rw [← this]
  | some u => simp

/-- 04 R72: the steps that a key k ≥ 1 makes in a storing state are those of `State.KeyTaken`. -/
theorem keyTaken_steps (s : State) (op : TrackOp) (r : FrameResult) (k : KeyRecord) (hop : s.tku.op = some op)
    (hk : k.index = s.swc.keys.length) :
    s.KeyTaken ((((s.recordKey k).askSelection .leading op.slot).rebase r).applyPending) op r k := by
  have hq := queueSeam_smu (s.addKey k) (.ordinary k.index)
  have hsmu : (((((s.recordKey k).askSelection .leading op.slot).rebase r).applyPending)).smu
      = ((s.addKey k).queueSeam (.ordinary k.index)).smu := by
    rw [applyPending_eq, ← recordKey_smu]; rfl
  refine ⟨?_, by rw [hsmu, ← hk]; exact hq.1, by rw [hsmu]; exact hq.2.2 _ rfl, by rw [hsmu]; exact hq.2.1⟩
  rw [applyPending_eq]
  have hx := recordKey_eq s k
  clear hsmu
  generalize s.recordKey k = x at hx
  generalize x.smu = a at hx
  generalize x.lku = b at hx
  subst hx
  simp only [State.askSelection, State.rebase, hop]
  cases s.swc.pendingTunables <;> rfl

/-- 04 R71, R72: a key taken in a storing state, but for a CLOSURE key: its steps with the KEY notice, then step 5, or at key 63 the key limit. -/
theorem takeTracked_storing (s : State) (op : TrackOp) (r : FrameResult) (kind : KeyKind) (k : KeyRecord)
    (hop : s.tku.op = some op) (hs : s.storing = true) (hk : kind ≠ .closure)
    (hr : k = s.keyRecordOf op.slot op.position r kind) :
    ∃ v, s.KeyTaken v op r k
      ∧ s.takeTracked op r kind
        = (if s.swc.keys.length = 63 then v.setStage .keyLimitDue else v.paceStep op r)
      ∧ s.Noticed v (.key s.swc.id k.index k.stored k.u k.v (placeU k.u) (placeV k.v) k.advance k.source
          k.flags k.inliers s.swc.framesPerKey) := by
  refine ⟨_, keyTaken_steps s op r k hop (by rw [hr]; rfl), ?_, ?_⟩
  · subst hr
    unfold State.takeTracked
    simp only [hk, if_false]
    rw [if_pos hs]
    rfl
  · refine (recordKey_noticed s k).kept (.of_lku ?_)
    rw [applyPending_eq]; rfl

end Sys2Proof.Machine
end

