-- ==== Sys2Proof/Laws/PerInstr.lean ====
section
/-! SUPPORT. Statements about every command, one lemma per constructor of Instr. -/
namespace Sys2Proof.Laws

/-- spec/opcode_table.json gives no row any bits: no word spells the command. -/
def NoWord.Statement (i : Instr) : Prop := ∀ nbits w : Nat, decodeTableWord nbits w ≠ some i

/-- A lookup that never answers does not answer `i`. -/
theorem NoWord.of_none (i : Instr) : NoWord.Statement i := fun _ _ h => nomatch h

theorem NoWord.headerLine (fv : Bool) (beats : List Beat) : NoWord.Statement (.headerLine fv beats) := NoWord.of_none _
theorem NoWord.pictureLine (fv : Bool) (tag : Beat) (beats : List Beat) : NoWord.Statement (.pictureLine fv tag beats) := NoWord.of_none _
theorem NoWord.frameEnd : NoWord.Statement .frameEnd := NoWord.of_none _
theorem NoWord.frameAbort : NoWord.Statement .frameAbort := NoWord.of_none _
theorem NoWord.inputFault : NoWord.Statement .inputFault := NoWord.of_none _
theorem NoWord.prepareComplete : NoWord.Statement .prepareComplete := NoWord.of_none _
theorem NoWord.trackStart : NoWord.Statement .trackStart := NoWord.of_none _
theorem NoWord.searchComplete : NoWord.Statement .searchComplete := NoWord.of_none _
theorem NoWord.calibrationDecision : NoWord.Statement .calibrationDecision := NoWord.of_none _
theorem NoWord.calibrationTimeout : NoWord.Statement .calibrationTimeout := NoWord.of_none _
theorem NoWord.noSweep : NoWord.Statement .noSweep := NoWord.of_none _
theorem NoWord.stalled : NoWord.Statement .stalled := NoWord.of_none _
theorem NoWord.trackLocked : NoWord.Statement .trackLocked := NoWord.of_none _
theorem NoWord.trackLost : NoWord.Statement .trackLost := NoWord.of_none _
theorem NoWord.patchLost : NoWord.Statement .patchLost := NoWord.of_none _
theorem NoWord.paceChange : NoWord.Statement .paceChange := NoWord.of_none _
theorem NoWord.closureAccepted : NoWord.Statement .closureAccepted := NoWord.of_none _
theorem NoWord.selectionComplete : NoWord.Statement .selectionComplete := NoWord.of_none _
theorem NoWord.takeKey : NoWord.Statement .takeKey := NoWord.of_none _
theorem NoWord.keyLimit : NoWord.Statement .keyLimit := NoWord.of_none _
theorem NoWord.tailKeyDecision : NoWord.Statement .tailKeyDecision := NoWord.of_none _
theorem NoWord.finalKeyMark : NoWord.Statement .finalKeyMark := NoWord.of_none _
theorem NoWord.seamJobDone : NoWord.Statement .seamJobDone := NoWord.of_none _
theorem NoWord.closureJobBegin : NoWord.Statement .closureJobBegin := NoWord.of_none _
theorem NoWord.commitEnter : NoWord.Statement .commitEnter := NoWord.of_none _
theorem NoWord.finalCommitEnter : NoWord.Statement .finalCommitEnter := NoWord.of_none _
theorem NoWord.stripOpenRequest : NoWord.Statement .stripOpenRequest := NoWord.of_none _
theorem NoWord.commitComplete : NoWord.Statement .commitComplete := NoWord.of_none _
theorem NoWord.memoryAccessComplete (outcome : EccOutcome) : NoWord.Statement (.memoryAccessComplete outcome) := NoWord.of_none _
theorem NoWord.transferStart : NoWord.Statement .transferStart := NoWord.of_none _
theorem NoWord.sopLineStart : NoWord.Statement .sopLineStart := NoWord.of_none _
theorem NoWord.sopRdyChange (level : Bool) : NoWord.Statement (.sopRdyChange level) := NoWord.of_none _
theorem NoWord.transferComplete : NoWord.Statement .transferComplete := NoWord.of_none _
theorem NoWord.cutTrailerDone : NoWord.Statement .cutTrailerDone := NoWord.of_none _
theorem NoWord.linkTransactionStart : NoWord.Statement .linkTransactionStart := NoWord.of_none _
theorem NoWord.messageSent : NoWord.Statement .messageSent := NoWord.of_none _
theorem NoWord.linkTransactionEnd (tail : List Byte) : NoWord.Statement (.linkTransactionEnd tail) := NoWord.of_none _
theorem NoWord.requestReceived (bytes : List Byte) : NoWord.Statement (.requestReceived bytes) := NoWord.of_none _
theorem NoWord.requestDispatch : NoWord.Statement .requestDispatch := NoWord.of_none _
theorem NoWord.unknownType : NoWord.Statement .unknownType := NoWord.of_none _
theorem NoWord.identGet : NoWord.Statement .identGet := NoWord.of_none _
theorem NoWord.statusGet : NoWord.Statement .statusGet := NoWord.of_none _
theorem NoWord.faultClear : NoWord.Statement .faultClear := NoWord.of_none _
theorem NoWord.sessionArm : NoWord.Statement .sessionArm := NoWord.of_none _
theorem NoWord.columnMapBuilt : NoWord.Statement .columnMapBuilt := NoWord.of_none _
theorem NoWord.sessionStart : NoWord.Statement .sessionStart := NoWord.of_none _
theorem NoWord.sessionTune : NoWord.Statement .sessionTune := NoWord.of_none _
theorem NoWord.sessionStop : NoWord.Statement .sessionStop := NoWord.of_none _
theorem NoWord.sessionAbort : NoWord.Statement .sessionAbort := NoWord.of_none _
theorem NoWord.sessionRelease : NoWord.Statement .sessionRelease := NoWord.of_none _
theorem NoWord.sessionSummaryGet : NoWord.Statement .sessionSummaryGet := NoWord.of_none _
theorem NoWord.keyGet : NoWord.Statement .keyGet := NoWord.of_none _
theorem NoWord.stripGet : NoWord.Statement .stripGet := NoWord.of_none _
theorem NoWord.gyroPut : NoWord.Statement .gyroPut := NoWord.of_none _
theorem NoWord.outputResumeRetry : NoWord.Statement .outputResumeRetry := NoWord.of_none _
theorem NoWord.outputResumeSkip : NoWord.Statement .outputResumeSkip := NoWord.of_none _
theorem NoWord.profileRead : NoWord.Statement .profileRead := NoWord.of_none _
theorem NoWord.profileStage : NoWord.Statement .profileStage := NoWord.of_none _
theorem NoWord.profileBurn : NoWord.Statement .profileBurn := NoWord.of_none _
theorem NoWord.profileProtect : NoWord.Statement .profileProtect := NoWord.of_none _
theorem NoWord.profileLock : NoWord.Statement .profileLock := NoWord.of_none _
theorem NoWord.profileReload : NoWord.Statement .profileReload := NoWord.of_none _
theorem NoWord.burnComplete (found : ReadBack) : NoWord.Statement (.burnComplete found) := NoWord.of_none _
theorem NoWord.engineReset : NoWord.Statement .engineReset := NoWord.of_none _
theorem NoWord.pinReset : NoWord.Statement .pinReset := NoWord.of_none _
theorem NoWord.linkFrameDiscard (bytes : List Byte) : NoWord.Statement (.linkFrameDiscard bytes) := NoWord.of_none _

end Sys2Proof.Laws
end

