-- ==== Sys2Proof/Laws/Tunables.lean ====
section
/-! SUPPORT. How the body of SESSION.TUNE is read (05 R86): item by item, and what the items come to. -/
namespace Sys2Proof.Machine

/-- 05 R86: a named tunable is one of the seven. -/
theorem tuneRow_lt {place : Nat} {row : ArmRow} (h : tuneRow place = some row) : place < 7 := by
  by_contra k
  unfold tuneRow at h
  rw [List.getElem?_eq_none (by simp; omega)] at h
  cases h

/-- 05 R86: the items of a body are taken one after the other. -/
theorem readTunables_items (items : List (Nat × Nat)) (hi : TuneItems items) (t : Tunables) (n : Nat)
    (tail : List Byte) :
    readTunables t (items.length + n) (items.flatMap tuneItem ++ tail)
      = readTunables (items.foldl (fun t e => t.put e.1 e.2) t) n tail := by
  induction items generalizing t with
  | nil => simp
  | cons e rest ih =>
    obtain ⟨p, v⟩ := e
    obtain ⟨row, hr, hv⟩ := hi (p, v) (by simp)
    have hp : p = 0 ∨ p = 1 ∨ p = 2 ∨ p = 3 ∨ p = 4 ∨ p = 5 ∨ p = 6 := by have := tuneRow_lt hr; omega
    have ih' := ih (fun e he => hi e (List.mem_cons_of_mem _ he)) (t.put p v)
    rw [show (⟨p, v⟩ :: rest : List (Nat × Nat)).length + n = (rest.length + n) + 1 by simp; omega]
    simp only [List.flatMap_cons, List.append_assoc, List.foldl_cons]
    rw [← ih']
    rcases hp with h | h | h | h | h | h | h <;> subst h <;>
      (simp [tuneRow, armTable] at hr; subst hr; simp at hv
       simp [readTunables, tuneItem, tuneRow, armTable, tunableBytesAt]
       rw [fieldNat_of_lt (by simpa using hv)])

/-- 05 R83: the last item of a place decides. -/
theorem tunedTo_snoc (l : List (Nat × Nat)) (p v q : Nat) :
    tunedTo (l ++ [(p, v)]) q
      = if p = q then (tuneRow q).map (fun row => max row.lo (min row.hi v)) else tunedTo l q := by
  unfold tunedTo
  rw [List.filter_append]
  by_cases h : p = q <;> simp [h]

/-- 05 R86: what the items come to. -/
theorem put_items (items : List (Nat × Nat)) (hi : TuneItems items) (t : Tunables) :
    items.foldl (fun t e => t.put e.1 e.2) t =
      { overlapPct := (tunedTo items 0).or t.overlapPct, radius := (tunedTo items 1).or t.radius
        lockCount := (tunedTo items 2).or t.lockCount, coastLimit := (tunedTo items 3).or t.coastLimit
        fastFrames := (tunedTo items 4).or t.fastFrames, slowFrames := (tunedTo items 5).or t.slowFrames
        stallFrames := (tunedTo items 6).or t.stallFrames } := by
  induction items using List.reverseRecOn generalizing t with
  | nil => simp [tunedTo]
  | append_singleton l e ih =>
    rw [List.foldl_append, ih (fun x hx => hi x (by simp [hx]))]
    obtain ⟨p, v⟩ := e
    obtain ⟨row, hr, _⟩ := hi (p, v) (by simp)
    have hp : p = 0 ∨ p = 1 ∨ p = 2 ∨ p = 3 ∨ p = 4 ∨ p = 5 ∨ p = 6 := by have := tuneRow_lt hr; omega
    rcases hp with h | h | h | h | h | h | h <;> subst h <;>
      (simp only [List.foldl_cons, List.foldl_nil, tunedTo_snoc]; rfl)

end Sys2Proof.Machine
end

