-- ==== Sys2Proof/Tests/Slice0.lean ====
section
/-! SUPPORT. Tests of the model: what WellFormed refuses, the worked examples of spec/ (each cites its section), single steps of commands on small states, and one witness for the hypotheses of every statement of Certificates/Slice0/Obligations.lean. -/
namespace Sys2Proof.Tests
open Sys2Proof.Machine

-- One test after another: checked side by side, they take more threads than the check's memory limit allows.
set_option Elab.async false

/-! ### WellFormed refuses one ill-formed command for each of its checks -/

theorem test_wf_header_tag_on_picture_line : Instr.wellFormed (.pictureLine true 0xA5A5#16 []) = false := by decide
theorem test_wf_no_bytes_received : Instr.wellFormed (.requestReceived []) = false := by decide
theorem test_wf_no_bytes_discarded : Instr.wellFormed (.linkFrameDiscard []) = false := by decide
theorem test_wf_f16_beyond_three_bytes :
    Instr.wellFormed (.burnComplete (.profile { f16 := 16777216, cxOff := 0, cyOff := 0, textureMin := 0 } 0#16)) = false := by
  decide
theorem test_wf_offset_beyond_two_bytes :
    Instr.wellFormed (.burnComplete (.profile { f16 := 1, cxOff := 32768, cyOff := 0, textureMin := 0 } 0#16)) = false := by
  decide
theorem test_wf_offset_below_two_bytes :
    Instr.wellFormed (.burnComplete (.profile { f16 := 1, cxOff := 0, cyOff := -32769, textureMin := 0 } 0#16)) = false := by
  decide
theorem test_wf_texture_beyond_two_bytes :
    Instr.wellFormed (.burnComplete (.profile { f16 := 1, cxOff := 0, cyOff := 0, textureMin := 65536 } 0#16)) = false := by
  decide
theorem test_wf_malformed_line_is_a_line : Instr.wellFormed (.pictureLine true 0x1234#16 []) = true := by decide
/-- The table gives no row any bits. -/
theorem test_no_word_spells_a_command : decodeTableWord 16 0xA5A5 = none := by decide

/-! ### Worked examples of spec/ -/

/-- 00 R1. -/
theorem test_rounding : roundDiv 169 2 = 85 ∧ roundDiv (-3) 2 = -2 ∧ roundDiv (-344) 10 = -34 := by decide
/-- 11 section 11.1.1: the CRC register after each byte of STATUS.GET with tag 0. -/
theorem test_crc_status_get :
    crc16 [0x02#8] = 0xC1B2#16 ∧ crc16 [0x02#8, 0#8] = 0x7B6D#16 ∧ crc16 [0x02#8, 0#8, 0#8] = 0xA2FC#16 := by
  decide +kernel
theorem test_frame_status_get :
    frameBytes 0x02#8 0#8 [] = [0xC5#8, 0x02#8, 0#8, 0#8, 0xA2#8, 0xFC#8] := by decide +kernel
/-- 01 section 1.4.1: the map entries of warped columns 1424 and 0. -/
theorem test_map_column :
    mapEntry 2048 25600 16384 1424 = (22921, 4228) ∧ (mapEntry 2048 25600 16384 0).1 = -2672 := by
  decide +kernel
/-- 01 section 1.4.1: the source row of warped row 100, and its position. -/
theorem test_source_row :
    roundDiv ((12288 - 8) * 4096 + (16 * 100 + 8 - 8 * 1536) * 4228) 4096 = 1256
      ∧ neighbours 22921 1256 = [(1432, 78, 56), (1433, 78, 72), (1432, 79, 56), (1433, 79, 72)] := by
  decide +kernel
/-- 03 section 3.1.1: the medians, the inliers and the class of six accepted patches. -/
theorem test_consensus_medians :
    let accepted : List (Int × Int) := [(1373, -35), (1370, -30), (1381, -38), (1366, -33), (1402, -10), (1375, -36)]
    lowerMedian (accepted.map Prod.fst) = 1373 ∧ lowerMedian (accepted.map Prod.snd) = -35
      ∧ accepted.map (isInlier accepted) = [true, true, true, true, false, true] ∧ confClass 5 6 = .good := by
  decide +kernel
/-- 03 section 3.4.1, frame 102: the WEAK result is the mean of estimate and prediction. -/
theorem test_blend_result :
    resultUsed { cls := .weak, n := 3, m := 2, est := some (1020, -10), memory := false } 1056 (-18)
      = ((1038, -14), .blend) := by decide
/-- 03 section 3.4.2: frame 51's snapshot is handed back. -/
theorem test_hand_back :
    Gyro.handBack { yaw := 4000, pitch := 0, received := true } { yaw := 3500, pitch := -800, received := true }
      = { yaw := 7500, pitch := -800, received := true } := by decide
/-- 06 section 6.2.1: the gains of three pairs. -/
theorem test_gains :
    unclampedGain (200, 1250000, 1180000) 300 0 0 = 318 ∧ unclampedGain (12, 1, 1) 318 5000 4000 = 398
      ∧ clampedGain 557 = (512, true) ∧ gained 318 100 = 124 ∧ gained 318 210 = 255 := by decide +kernel
/-- 06 section 6.4.1: the path through five cell columns. -/
theorem test_seam_path :
    seamColumns [[900, 350, 350, 700, 1200], [800, 500, 300, 17344, 900], [1000, 200, 600, 17344, 400],
      [700, 300, 300, 500, 300]] = [2, 2, 1, 2] := by decide +kernel
/-- 07 section 7.5.1: weights and written values across a seam. -/
theorem test_feather :
    featherWeight 3987 3996 = 0 ∧ featherWeight 3990 3996 = 2 ∧ featherWeight 4001 3996 = 13
      ∧ featherWeight 4010 3996 = 16 ∧ blend 2 124 132 = 125 ∧ blend 8 126 130 = 128 ∧ blend 2 110 118 = 111
      ∧ (joinSides 13 { val := none, words := [] } { val := some 129, words := [] }).val = some 129 := by
  decide +kernel
/-- 08 section 8.5.1: the last strip of a canvas of 10,065 columns. -/
theorem test_last_strip : lastStripIndex 10065 = 78 ∧ placeU (155040 + 6000) = 10065 := by decide
/-- 05 section 5.2.1: the body of the ARM, and the configuration in force that it gives. -/
def armBody : List Byte :=
  [0#8, 7#8, 128#8, 0#8, 5#8, 128#8, 0#8, 1#8, 0#8, 0#8, 0#8, 1#8, 1#8, 1#8, 0#8, 70#8] ++ List.replicate 5 1#8
    ++ [0#8, 9#8] ++ List.replicate 8 1#8

def armedConfig : SessionConfig :=
  { wf := 1920, hf := 1408, profileSlot := 1, direction := .auto, extent := .fullCircle, policy := .wait
    gyroUse := true, overlapPct := 60, radius := 6, marginPct := 10, lockCount := 3, coastLimit := 8
    calFrames := 45, fastFrames := 8, slowFrames := 20, stallFrames := 90, textureMin := 960
    matchMeanMax := 12, distinctMin := 512, maxStrips := 512, fillY := 16, fillC := 128
    f16 := 25600, cxOff := 0, cyOff := 0 }

theorem test_arm_outcome : State.reset.armOutcome armBody = .ok armedConfig := by rfl
/-- 05 section 5.2.1: the derived values. -/
theorem test_derived_values :
    armedConfig.wt = 480 ∧ armedConfig.ht = 352 ∧ armedConfig.gw = 30 ∧ armedConfig.gh = 22
      ∧ armedConfig.mrows = 144 ∧ armedConfig.hc = 1120 ∧ armedConfig.atAdv = 3072 ∧ armedConfig.amax = 6144
      ∧ armedConfig.uc = 10053 ∧ armedConfig.heldStrips = 16 := by decide +kernel

/-! ### Small states -/

/-- A session in a state, armed with the configuration of 05 section 5.2.1 and sweeping RIGHT. -/
def inState (st : SessionState) : State :=
  { State.reset with swc := { Swc.reset with state := st, id := 1, config := some armedConfig, decided := some .right } }

def sweeping : State := inState .sweeping

/-- The part with one request dispatched. -/
def asked (s : State) (type : Byte) (body : List Byte) : State :=
  { s with lku.requests := [{ type := type, tag := 7#8, body := body }], lku.executing := true }

def resultOf (stored : Nat) (au : Int) (lock : LockState) : FrameResult :=
  { stored := stored, interval := 1, cls := .good, source := .image, au := au, av := 0, m := 6, n := 6
    memory := false, inView := 6, lock := lock, su := 0, sv := 0, gyroMark := false, closure := none }

/-- A tracking operation on slot 2. -/
def operation (stage : TrackStage) : TrackOp :=
  { slot := 2, pu := 0, pv := 0, cpred := none, radius := 6, rd := {}, stage := stage, main := default
    closure := none, used := (0, 0), source := .image, result := some (resultOf 5 3072 .locked), position := (12288, -2304)
    selections := [] }

def frameOf (stored : Nat) : FrameRecord :=
  { counter := 5#8, exposure := 4000, snapshot := {}, stored := some stored, interval := some 1 }

def withOp (s : State) (stage : TrackStage) : State :=
  { s.putSlot 2 .tracking (frameOf 5) with tku.op := some (operation stage) }

def keyOf (index : Nat) (u : Int) (state : KeyState) (slot : Option (Fin 8)) : KeyRecord :=
  { index := index, stored := index, slot := slot, u := u, v := -2304, advance := 0, source := .image
    inliers := 6, exposure := 4000, gain := none, seam := none, state := state, flags := {} }

def stripOf (index : Nat) (state : StripState) (error : Bool) : Strip :=
  { index := index, slot := .ring index, width := 128, state := state, holes := 0, damaged := false
    wrap := false, last := false, error := error }

def transferOf (line : Nat) (errorSeen : Bool) : Transfer :=
  { strip := 3, session := 1, line := line, errorSeen := errorSeen, holes := 0, flags := 0#16 }

/-- Strip 3 in the table and at the head of the output queue. -/
def withStrip (s : State) (state : StripState) (error : Bool) : State :=
  { s with cvm.strips := [stripOf 3 state error], cvm.outQueue := [3] }

/-- A read, or a write, of the word at 8 in progress. -/
def granted (write : Option WordWrite) : State :=
  { State.reset with grant := some { access := { who := .igu, addr := 8, write := write }, live := true } }

def wholeWrite : WordWrite := { addr := 8, bytes := List.replicate 8 (some 0xAB#8) }
def mergeWrite : WordWrite := { addr := 8, bytes := List.replicate 4 (some 0xAB#8) ++ List.replicate 4 none }

/-- A field of the next state of an answer. -/
def after {α : Type} (a : Answer) (f : State → α) : Option α :=
  match a with
  | .next t => some (f t)
  | .fault _ => none
  | .refused _ => none

/-! ### Single steps -/

/-- 01 R4 step 6. -/
theorem test_header_line_fills_slot_0 :
    after (exec (.headerLine true [0x0105#16, 4000#16, 0#16]) sweeping)
      (fun t => (t.slotState 0, t.igu.slots[0].record.map FrameRecord.counter)) = some (.filling, some 5#8) := by
  decide +kernel
/-- 01 R4 step 2: outside the storing states a header line has no effect. -/
theorem test_header_line_ignored_when_armed :
    after (exec (.headerLine true [0x0105#16, 4000#16, 0#16]) (inState .armed)) (fun t => t.slotState 0)
      = some .free := by decide +kernel
/-- 01 R4 step 3: a short header line is a GEOMETRY reject. -/
theorem test_short_header_counts :
    after (exec (.headerLine true [0x0105#16]) sweeping) (fun t => t.igu.geoRun) = some 1 := by decide +kernel
/-- 01 R8: a frame aborted. -/
theorem test_abort_frees_slot :
    after (exec .frameAbort (sweeping.putSlot 0 .filling (frameOf 0)))
      (fun t => (t.slotState 0, t.igu.dropped, t.lku.flags.frameDropped)) = some (.free, 1, true) := by decide +kernel
/-- 08 section 8.5.1: the closure prediction of frame 690. -/
theorem test_closure_prediction :
    ({ sweeping with swc.keys := [{ keyOf 14 148000 .pinned none with v := -2350 }] }).closurePredict (1400, -6)
      = (-1812, -18) := by decide +kernel
/-- 08 section 8.5.1: the measurement of frame 691. -/
theorem test_closure_measure :
    sweeping.closureMeasure (155040, -2362)
      { resultOf 691 1760 .locked with
        closure := some { cls := .good, n := 6, m := 6, est := some (-1500, -14), memory := false } }
      = some (10065, -2) := by decide +kernel
/-- 10 R167: a merge keeps the bytes it does not write. -/
theorem test_merge_keeps_other_bytes :
    after (exec (.memoryAccessComplete .clean) { granted (some mergeWrite) with mem := [(15, 0x11#8)] })
      (fun t => (readByte t.mem 8, readByte t.mem 11, readByte t.mem 12, readByte t.mem 15))
      = some (0xAB#8, 0xAB#8, 0#8, 0x11#8) := by decide +kernel
/-- 10 R167: a merge over an uncorrectable word leaves it poisoned and sets ECC_ERROR. -/
theorem test_failed_merge_poisons :
    after (exec (.memoryAccessComplete .uncorrectable) (granted (some mergeWrite)))
      (fun t => (markOf t.ecc 8, t.lku.flags.eccError)) = some (some .uncorrectable, true) := by decide +kernel
/-- 09 R155: the header line of strip 3. -/
theorem test_transfer_header :
    after (exec .transferStart { withStrip sweeping .final false with pins.sopRdy := true })
      (fun t => t.pins.sopLine)
      = some [0x6B6B#16, 1#16, 3#16, 384#16, 0#16, 128#16, 1120#16, 0#16, 1#16] := by decide +kernel
/-- 09 R155, R156: two beats of a header line that has seven left; the last one, with which SOP_LV falls; and none while SOP_RDY is low. -/
theorem test_beats_of_a_line :
    let s (beat : Nat) (rdy : Bool) : State :=
      { withStrip sweeping .sending false with
        pins := { Pins.reset with sopFv := true, sopLv := true, sopRdy := rdy, sopLine := List.replicate 9 0#16, sopBeat := beat }
        opu := { state := .sending, number := 1, xfer := some (transferOf 0 false) } }
    after (step (s 2 true)) (fun t => (t.pins.sopBeat, t.pins.sopLv)) = some (3, true)
      ∧ after (step (s 8 true)) (fun t => (t.pins.sopBeat, t.pins.sopLv)) = some (9, false)
      ∧ after (step (s 8 false)) (fun t => (t.pins.sopBeat, t.pins.sopLv)) = some (8, true) := by decide +kernel
/-- 11 R172: the bytes of 11 section 11.1.1, after a byte that the hunt discards. -/
theorem test_status_get_received :
    after (exec (.requestReceived [0#8, 0xC5#8, 0x02#8, 0#8, 0#8, 0xA2#8, 0xFC#8])
      { State.reset with pins.lkSelected := true }) (fun t => t.lku.requests)
      = some [{ type := 0x02#8, tag := 0#8, body := [] }] := by decide +kernel
/-- 11 R171: the reply to IDENT.GET has type 0x81. -/
theorem test_ident_reply_type :
    after (exec .identGet (asked State.reset 0x01#8 [])) (fun t => t.lku.replies.map Reply.type)
      = some [0x81#8] := by decide +kernel
/-- 05 R81: session id 65,535 is followed by 1. -/
theorem test_session_id_wraps : nextId 65535 = 1 ∧ nextId 1 = 2 := by decide
/-- 12 R187: slot 0 is protected by bit 0 of the mask. -/
theorem test_burn_protected :
    after (exec .profileBurn
      (asked { State.reset with psc.stage := some deliveredProfile, psc.shadow.mask := 1#4 } 0x32#8 [0#8]))
      (fun t => t.lku.replies.map Reply.body) = some [.result .isProtected] := by decide +kernel
/-- 12 R189: a burn whose read-back differs fails. -/
theorem test_burn_failed :
    after (exec (.burnComplete (.profile { deliveredProfile with f16 := 1 } 0#16))
      { State.reset with psc.burn := some (.profile 1 deliveredProfile) })
      (fun t => (t.lku.conds.burnFailed, t.psc.burn.isSome)) = some (true, false) := by decide +kernel

/-! ### Witnesses: concrete states and operands that meet the hypotheses of each statement -/

/-- A part at work: a command queued, a write in progress, memory and a mark set, a key, a strip, a notice. -/
def busy : State :=
  { withStrip (withOp sweeping .finished) .opened false with
    pending := [.memoryAccessComplete .clean, .statusGet]
    grant := (granted (some mergeWrite)).grant
    mem := [(9, 0x22#8)]
    ecc := [(8, .singleBit)]
    swc.keys := [keyOf 0 0 .pinned none] }

theorem test_wit_stepRunsFront : busy.pending = .memoryAccessComplete .clean :: [.statusGet] ∧ State.reset.pending = []
      ∧ State.reset.pins.sopRdy = false ∧ State.reset.pins.sopLv = false ∧ State.reset.opu.state = .idle := by decide
theorem test_wit_execTotalKeepsQueue : ∃ t, exec (.memoryAccessComplete .clean) busy = .next t := ⟨_, rfl⟩
theorem test_wit_blocksUntouched :
    (∀ o, Instr.frameAbort ≠ .memoryAccessComplete o) ∧ Instr.frameAbort ≠ .pinReset ∧ ∃ t, exec .frameAbort busy = .next t :=
  ⟨fun _ h => (nomatch h), by decide, _, rfl⟩
theorem test_wit_memoryCanonicalKept : busy.MemoryCanonical ∧ ∃ t, step busy = .next t := ⟨by unfold State.MemoryCanonical; decide, _, rfl⟩
theorem test_wit_linkBoundedKept : busy.LinkBounded ∧ ∃ t, step busy = .next t := ⟨by unfold State.LinkBounded; decide, _, rfl⟩
theorem test_wit_gyroRangeKept : busy.GyroInRange ∧ ∃ t, step busy = .next t := by
  refine ⟨⟨by unfold Gyro.InRange; decide, fun i r h => ?_⟩, _, rfl⟩
  have : ∀ i : Fin 8, ∀ r ∈ busy.igu.slots[i].record, r.snapshot = {} := by decide +kernel
  rw [this i r h]; unfold Gyro.InRange; decide
theorem test_wit_countsHoldKept : busy.CountsHold ∧ ∃ t, step busy = .next t := ⟨by unfold State.CountsHold; decide, _, rfl⟩
theorem test_wit_portLevelsKept : busy.PortLevels ∧ ∃ t, step busy = .next t := ⟨by unfold State.PortLevels; decide, _, rfl⟩
/-- A burn of slot 0 running, the other slots protected. -/
theorem test_wit_burnAllowedKept :
    let s := { busy with psc := { Psc.reset with burn := some (.profile 0 deliveredProfile), shadow.mask := 0xE#4 } }
    s.BurnAllowed ∧ ∃ t, step s = .next t := by
  refine ⟨fun i f h => ?_, _, rfl⟩
  cases h; exact ⟨by decide, fun _ => by decide⟩
theorem test_wit_roundingToNearest : (0 : Int) < 1 ∧ (0 : Nat) < 1 := by decide
/-- Outside the storing states, with slots QUEUED in none. -/
theorem test_wit_ringFollowsSessionKept :
    let s := { withOp (inState .finishing) .finished with pending := [.frameAbort] }
    s.RingFollowsSession ∧ s.storing = false ∧ ∃ t, step s = .next t :=
  ⟨fun _ => by decide +kernel, by decide, _, rfl⟩
/-- A ring at work: slot 2 in tracking, slot 1 in its pass, slots 4 and 6 KEY, slot 5 LAST, slots 0 and 7 filling up. -/
def ringAtWork : State :=
  let s := ((((withOp sweeping .finished).putSlot 4 .key (frameOf 0)).putSlot 6 .key (frameOf 3)).putSlot 5 .last (frameOf 4)).putSlot 1 .preparing (frameOf 6)
  { (s.putSlot 0 .filledWait (frameOf 7)).putSlot 7 .filling (frameOf 8) with
    igu.prep := some { slot := 1 }
    swc.keys := [keyOf 0 0 .pinned (some 4), keyOf 1 3072 .pinned (some 6)], pending := [.headerLine true []] }
theorem test_wit_ringFollowsSessionKept_limits :
    ringAtWork.RingLimits ∧ (∃ t, step ringAtWork = .next t) ∧ ringAtWork.pinnedSlots = [4, 6]
      ∧ (withOp { ringAtWork with swc.keys := ringAtWork.swc.keys ++ [keyOf 2 6144 .pinned (some 2)] } .finished).keyResources = false :=
  ⟨⟨by decide +kernel, fun i h => ⟨{ slot := 1 }, rfl, by revert i; decide +kernel⟩,
      fun i h => ⟨operation .finished, rfl, by revert i; decide +kernel⟩, by decide +kernel, by decide +kernel, by decide +kernel,
      fun h => absurd rfl h, fun h => (by rcases h with h | h <;> cases h), fun _ h k => (by cases h; cases k),
      fun _ h k => (by cases h; rcases k with ⟨_, k⟩ | ⟨_, _, k⟩ <;> cases k), fun h => (nomatch h), fun h => (by rcases h with h | h <;> cases h)⟩,
    ⟨_, rfl⟩, by decide +kernel, by decide +kernel⟩
theorem test_wit_sessionIdChanges :
    (Instr.frameAbort ≠ .columnMapBuilt ∧ Instr.frameAbort ≠ .pinReset ∧ ∃ t, exec .frameAbort busy = .next t)
      ∧ (∃ t, exec .columnMapBuilt busy = .next t) ∧ ∃ t, exec .pinReset busy = .next t :=
  ⟨⟨by decide, by decide, _, rfl⟩, ⟨_, rfl⟩, _, rfl⟩
theorem test_wit_storeAndShadowChange :
    (∀ f, Instr.profileReload ≠ .burnComplete f) ∧ Instr.profileReload ≠ .pinReset
      ∧ (∃ t, exec .profileReload (asked State.reset 0x35#8 []) = .next t)
      ∧ Instr.burnComplete .asMeant ≠ .profileReload ∧ Instr.burnComplete .asMeant ≠ .pinReset
      ∧ ∃ t, exec (.burnComplete .asMeant) { State.reset with psc.burn := some (.profile 0 deliveredProfile) } = .next t :=
  ⟨fun _ h => (nomatch h), by decide, ⟨_, rfl⟩, by decide, by decide, _, rfl⟩
theorem test_wit_eventFlagsStay :
    Instr.frameAbort ≠ .statusGet ∧ Instr.frameAbort ≠ .pinReset
      ∧ ∃ t, exec .frameAbort { busy with lku.flags.linkError := true } = .next t := ⟨by decide, by decide, _, rfl⟩
theorem test_wit_keysOnlyAdded :
    clearsKeys (.memoryAccessComplete .clean) = false ∧ (∃ t, exec (.memoryAccessComplete .clean) busy = .next t)
      ∧ busy.swc.keys[0]? = some (keyOf 0 0 .pinned none) := ⟨by decide, ⟨_, rfl⟩, rfl⟩
theorem test_wit_headerLineTakesSlot :
    sweeping.storing = true ∧ sweeping.firstIn .filling = none ∧ sweeping.firstIn .free = some 0
      ∧ sweeping.igu.lastCounter ≠ some ((0x0105 : Beat).setWidth 8) := by decide +kernel
/-- The other clauses: a FILLING frame, a session that stores nothing, two beats after the tag with the run at 7, a repeated counter. -/
theorem test_wit_headerLineTakesSlot_other :
    (let s := sweeping.putSlot 0 .filling (frameOf 0)
     s.storing = true ∧ s.slotsIn .filling = [0] ∧ s.igu.slots[0].record = some (frameOf 0))
      ∧ (inState .armed).storing = false ∧ (inState .armed).firstIn .filling = none
      ∧ [0x0105#16, 4000#16].length < 3 ∧ ({ sweeping with igu.geoRun := 7 }).igu.geoRun < 8
      ∧ ({ sweeping with igu.lastCounter := some 5#8 }).igu.lastCounter = some ((0x0105 : Beat).setWidth 8) := by
  decide +kernel

def filling : State := sweeping.putSlot 0 .filling (frameOf 0)

/-- The last row of the frame, and 1,920 beats. -/
theorem test_wit_pictureLineStores :
    let s := { filling with igu.linesCounted := 1407 }
    s.storing = true ∧ s.firstIn .filling = some 0 ∧ s.igu.lineBuffers.length < 2 ∧ s.igu.linesCounted < s.cfg.hf
      ∧ (List.replicate 1920 (0 : Beat)).length = s.cfg.wf := by decide +kernel
/-- The other clauses: a malformed line with both line buffers taken, a line beyond the last row, the last column of a line, an overrun. -/
theorem test_wit_pictureLineStores_other :
    let b : LineBuffer := { slot := 0, writes := [wholeWrite] }
    let s := { filling with igu.lineBuffers := [b, b] }
    s.storing = true ∧ s.firstIn .filling = some 0 ∧ 0x1234#16 ≠ pictureTag ∧ 2 ≤ s.igu.lineBuffers.length
      ∧ s.igu.slots[0].record = some (frameOf 0) ∧ ¬ 1408 < s.cfg.hf
      ∧ (List.replicate 1920 (0 : Beat))[1919]? = some 0 ∧ 1919 < s.cfg.wf ∧ sweeping.firstIn .filling = none := by
  decide +kernel
/-- A line of nine beats on an odd row: two whole words, the ninth luma first in the second. -/
theorem test_short_line_writes_whole_words :
    let l := lineWrites 0 1920 1 ((List.range 9).map (fun k => BitVec.ofNat 16 (k + 1)))
    l.map WordWrite.addr = [2048, 2056] ∧ l.map WordWrite.whole = [true, true]
      ∧ l.map (fun w => w.bytes.head?) = [some (some 1#8), some (some 9#8)] := by decide +kernel
/-- 01 R5: an even row of two beats writes its luma, its Cb of column 0 and its Cr of column 1; of an odd row only the luma is written. -/
theorem test_chroma_of_even_rows :
    let line (r : Nat) := (lineWrites 0 1920 r [0x8001#16, 0x9002#16]).map (fun w => (w.addr, w.bytes.head?))
    line 2 = [(rawLumaAddr 0 0 2, some (some 1#8)), (rawCbAddr 0 0 1, some (some 0x80#8)), (rawCrAddr 0 0 1, some (some 0x90#8))]
      ∧ line 3 = [(rawLumaAddr 0 0 3, some (some 1#8))] ∧ 1406 % 2 = 0 ∧ 1407 % 2 = 1 := by decide +kernel
/-- Both clauses: a whole frame; a frame a line short with the run at 7. -/
theorem test_wit_frameEnds :
    (filling.storing = true ∧ filling.firstIn .filling = some 0 ∧ filling.igu.slots[0].record = some (frameOf 0))
      ∧ (let s := { filling with igu.linesCounted := 1408 }; s.igu.misShaped = false ∧ s.igu.linesCounted = s.cfg.hf)
      ∧ (let s := { filling with igu.linesCounted := 1407, igu.geoRun := 7 }
         s.igu.linesCounted ≠ s.cfg.hf ∧ s.igu.geoRun < 8) := by decide +kernel

def full : State :=
  { sweeping with igu.slots := Vector.replicate 8 { state := .queued, record := some (frameOf 0) } }

theorem test_wit_framesDropped :
    (filling.storing = true ∧ filling.firstIn .filling = some 0 ∧ filling.igu.slots[0].record = some (frameOf 0))
      ∧ (full.storing = true ∧ full.firstIn .filling = none ∧ full.firstIn .free = none
        ∧ full.igu.lastCounter ≠ some ((0 : Beat).setWidth 8)) := by decide +kernel
theorem test_wit_inputFaultEndsSweep :
    (let s := { sweeping with igu.faultReport := true }
     s.igu.faultReport = true ∧ s.storing = true ∧ s.swc.closurePending = false)
      ∧ (let s := { sweeping with igu.faultReport := true, swc.closurePending := true }
         s.igu.faultReport = true ∧ s.swc.closurePending = true) := by decide

/-- A prepare pass with nothing to read: the least configuration, in a session state. -/
def preparing (st : SessionState) : State :=
  let s := { (inState st).putSlot 1 .preparing (frameOf 4) with swc.config := some default }
  { s with igu.prep := some { slot := 1 } }

theorem test_wit_prepareCompletes :
    (∀ st, (preparing st).igu.prep = some { slot := 1 } ∧ (preparing st).slotState 1 = .preparing
        ∧ nextRead (prepareReads ((preparing st).prepView { slot := 1 })) {} = none
        ∧ (prepareWrites ((preparing st).prepView { slot := 1 }) (preparing st).cfg.wt (preparing st).cfg.ht).length ≤ 0)
      ∧ (preparing .sweeping).storing = true
      ∧ (preparing .finishing).storing = false ∧ (preparing .finishing).slotsIn .filledWait = [] := by
  refine ⟨fun st => ?_, by decide +kernel, by decide +kernel, by decide +kernel⟩
  cases st <;> decide +kernel

/-! Tracking -/

def queued : State := sweeping.putSlot 3 .queued (frameOf 9)

/-- Both forms of prediction, and CLOSING. -/
theorem test_wit_trackStartTakesOldest :
    queued.tku.op = none ∧ queued.oldestIn .queued = some 3 ∧ queued.igu.slots[3].record = some (frameOf 9)
      ∧ (frameOf 9).interval = some 1 ∧ queued.cfg.gyroUse = true ∧ (frameOf 9).snapshot.received = false
      ∧ { frameOf 9 with snapshot := { yaw := 2000000, pitch := -2000000, received := true } }.snapshot.received = true := by
  decide +kernel
/-- 03 R57: the radius in force and at its limit of 24; 08 R146: the closure prediction of 08 section 8.5.1. -/
theorem test_wit_trackStartTakesOldest_radius :
    let op (s : State) : Option TrackOp := (after (exec .trackStart s) (fun t => t.tku.op)).join
    let lost := { queued with tku.lock.state := .lost }
    (op queued).map TrackOp.radius = some 6 ∧ (op lost).map TrackOp.radius = some 12
      ∧ (op { queued with swc.state := .recalibrating }).map TrackOp.radius = some 12
      ∧ (op { lost with swc.config := some { armedConfig with radius := 13 } }).map TrackOp.radius = some 24
      ∧ (op { queued with swc.state := .closing, tku.held := (1400, -6), swc.keys := [{ keyOf 14 148000 .pinned none with v := -2350 }] }).bind TrackOp.cpred
        = some (-1812, -18) ∧ (op queued).bind TrackOp.cpred = none := by decide +kernel
theorem test_wit_searchEnds :
    let s := withOp sweeping .searching
    s.tku.op = some (operation .searching) ∧ (operation .searching).stage = .searching ∧ s.nextSearchRead = none
      ∧ (operation .searching).rd.failed = [] := by decide +kernel
/-- The lock states that the clauses name, a good run and a miss run one short of their limits, and at them. -/
theorem test_wit_searchEnds_lock :
    ∀ l ∈ [LockState.acquiring, .locked, .coasting, .lost],
    let s := { withOp sweeping .searching with tku.lock := { state := l, goodRun := 2, missRun := 7 } }
    s.tku.lock.state = l ∧ s.cfg.lockCount ≤ s.tku.lock.goodRun + 1 ∧ s.cfg.coastLimit ≤ s.tku.lock.missRun + 1
      ∧ ¬ s.cfg.lockCount ≤ 1 + 1 ∧ ¬ s.cfg.coastLimit ≤ 6 + 1 := by decide +kernel

/-- A sweep with key 0 at `u`, a high-water mark, and a frame whose result SWC decides on. -/
def judged (u : Int) (mark : Int) : State :=
  { withOp sweeping .finished with swc.keys := [keyOf 0 u .committed none], swc.highWater := some mark }

/-- 04 R66 to R70: reversal, gap, the key tests and the canvas limit, each at its boundary and one beyond. -/
theorem test_wit_searchEnds_decision :
    (judged 0 0).tku.op = some (operation .finished) ∧ (judged 0 0).heldAsKey 2 = false
      ∧ ((judged 0 19969).decideFrame (resultOf 5 3072 .locked)).swc.endCause = some .reversed
      ∧ ((judged 0 19968).decideFrame (resultOf 5 3072 .locked)).swc.keys.length = 2
      ∧ ((judged 0 0).decideFrame (resultOf 5 6145 .locked)).swc.endCause = some .gap
      ∧ ((judged 0 0).decideFrame (resultOf 5 6144 .locked)).swc.keys.length = 2
      ∧ ((judged 0 0).decideFrame (resultOf 5 3071 .locked)).swc.keys.length = 1
      ∧ ((judged 1005568 0).decideFrame (resultOf 5 3072 .locked)).swc.keys.length = 2
      ∧ ((judged 1005584 0).decideFrame (resultOf 5 3072 .locked)).swc.endCause = some .limit
      ∧ ({ judged 0 0 with smu.queue := [.ordinary 1, .ordinary 2] }).keyResources = false := by decide +kernel
/-- 04 R68, R69: each kind of key. -/
theorem test_wit_searchEnds_keyTests :
    let s := { judged 0 0 with swc.gyroSinceKey := true }
    s.keyTests (resultOf 5 3072 .coasting) = some .normal
      ∧ s.keyTests { resultOf 5 1536 .locked with inView := 2 } = some .forced
      ∧ s.keyTests { resultOf 5 3072 .lost with cls := .none } = some .bridged
      ∧ s.keyTests { resultOf 5 3071 .lost with cls := .none } = none
      ∧ s.swc.keys ≠ [] ∧ s.swc.state = .sweeping
      ∧ (let u := { s with swc.state := .closing }; u.swc.state = .closing ∧ u.sgn * (resultOf 5 (-1) .locked).au < 0
          ∧ u.closureMeasure (u.positionOf (resultOf 5 0 .locked)) (resultOf 5 0 .locked) = none)
      ∧ (withOp sweeping .finished).swc.keys = [] ∧ (withOp (inState .finishing) .finished).swc.state = .finishing := by
  decide +kernel
/-- A frame that becomes no key, with nothing due; with the stall test due; with the pace change due; and in CLOSING. -/
theorem test_wit_searchEnds_noKey :
    let r := resultOf 5 3071 .locked
    let s := judged 0 0
    let out (s : State) := ((s.decideFrame r).tku.op.map TrackOp.stage, (s.decideFrame r).slotState 2)
    (s.countFrame r).keyTests r = none ∧ out s = (none, .last)
      ∧ (s.decideFrame r).swc.lastResult = (operation .finished).result
      ∧ out { s with swc.stallCount := 89, swc.highWater := some 12284 } = (some .stalledDue, .tracking)
      ∧ out { s with swc.pace := { candidate := some .slow, run := 2 } } = (some .paceDue, .tracking)
      ∧ out { s with swc.state := .closing, cvm.closureRun := 1 } = (none, .last)
      ∧ ({ s with swc.state := .closing, cvm.closureRun := 1 }.decideFrame r).cvm.closureRun = 0 := by decide +kernel
/-- 03 R57: the radius of the TRACK notice, for each lock state, in RECALIBRATING, and at its limit. -/
theorem test_wit_searchEnds_radius :
    sweeping.radiusFor .locked = 6 ∧ sweeping.radiusFor .coasting = 6 ∧ sweeping.radiusFor .lost = 12
      ∧ (inState .recalibrating).radiusFor .locked = 12
      ∧ ({ sweeping with swc.config := some { armedConfig with radius := 13 } }).radiusFor .lost = 24 := by decide +kernel
/-- 04 R72: a key taken at once with tunables pending, the seam queue empty and taken up, and key 63. -/
theorem test_wit_searchEnds_keyTaken :
    let r := resultOf 5 3072 .locked
    let u : Tunables := { radius := some 3 }
    let s (job : List SeamJob) := { judged 0 0 with
      swc.pendingTunables := some u, swc.framesPerKey := 4, smu := { queue := job, run := if job = [] then none else some { held := true } } }
    let t (job : List SeamJob) := (s job).decideFrame r
    (s []).swc.pendingTunables = some u ∧ (s []).keyResources = true
      ∧ ((t []).swc.config.map SessionConfig.radius, (t []).swc.pendingTunables, (t []).swc.framesPerKey) = (some 3, none, 0)
      ∧ ((t []).smu.queue, (t []).smu.run) = ([.ordinary 1], some {})
      ∧ ((t [.ordinary 0]).smu.queue, (t [.ordinary 0]).smu.run) = ([.ordinary 0, .ordinary 1], some { held := true })
      ∧ (t []).tku.op.map TrackOp.stage = some .finished
      ∧ (let v := { judged 0 0 with swc.keys := List.replicate 63 (keyOf 0 0 .released none) }
         (v.decideFrame r).tku.op.map TrackOp.stage = some .keyLimitDue ∧ (v.decideFrame r).swc.keys.length = 64) := by
  decide +kernel
/-- 08 R147: a qualifying closure frame with run 0 that meets a key test is taken as a key, and one that meets none goes on. -/
theorem test_wit_searchEnds_closureRun :
    let r (au : Int) := { resultOf 691 au .locked with
      closure := some { cls := .good, n := 6, m := 6, est := some (-1500, -14), memory := false } }
    let s (u : Int) := { withOp (inState .closing) .finished with swc.keys := [keyOf 14 u .committed none] }
    let out (u au : Int) := (((s u).closureMeasure ((s u).positionOf (r au)) (r au)).map Prod.fst, ((s u).decideFrame (r au)).cvm.closureRun,
      ((s u).decideFrame (r au)).swc.keys.length)
    (s 148000).cvm.closureRun ≠ 1 ∧ 0 ≤ (s 148000).sgn * (r 1760).au
      ∧ out 148000 1760 = (some 10065, 1, 1) ∧ out 142752 3072 = (some 10065, 1, 2) := by decide +kernel
theorem test_wit_memoryErrorFrame :
    let op := { operation .searching with rd := { done := [0], failed := [0] } }
    let s := { withOp sweeping .searching with tku.op := some op }
    s.tku.op = some op ∧ op.stage = .searching ∧ op.rd.failed ≠ [] := by decide +kernel
/-- Each stage that a statement of this section starts from. -/
theorem test_wit_stages :
    ∀ st ∈ [TrackStage.patchesDue [(false, 15)], .patchesDue [(true, 0)], .lockedDue, .lostDue, .calDecisionDue,
      .calTimeoutDue, .noSweepDue, .stalledDue, .keyLimitDue, .paceDue, .closureDue 10065 (-2), .keyWaiting .forced],
    (withOp sweeping st).tku.op = some (operation st) ∧ (operation st).stage = st
      ∧ (operation st).result = some (resultOf 5 3072 .locked) ∧ (withOp sweeping st).storing = true := by decide +kernel
/-- A selection of a view with no cells: the least configuration. -/
theorem test_wit_selectionReplacesSet :
    ∀ kind ∈ [SetKind.calibration, .leading, .closure],
    let sel : Selection := { kind := kind, slot := 2 }
    let op := { operation .finished with selections := [sel] }
    let s := { withOp sweeping .finished with swc.config := some default, tku.op := some op }
    s.tku.op = some op ∧ op.selections = [sel] ∧ op.stage ≠ .searching
      ∧ nextRead (s.selectionView sel).run.words sel.rd = none := by decide +kernel
/-- The moves: to KEY and to LAST, with another slot LAST; and a second selection still to come. -/
theorem test_wit_selectionReplacesSet_moves :
    let sel : Selection := { kind := .leading, slot := 2 }
    let op := { operation .finished with selections := [sel] }
    let s := { (withOp sweeping .finished).putSlot 4 .last (frameOf 4) with swc.config := some default, tku.op := some op }
    let k := { s with swc.keys := [keyOf 0 0 .pinned (some 2)] }
    let more := { s with tku.op := some { op with selections := [sel, { sel with kind := .closure }] } }
    after (exec .selectionComplete s) (fun t => (t.slotState 2, t.slotState 4, t.tku.op.isSome)) = some (.last, .free, false)
      ∧ after (exec .selectionComplete k) (fun t => (t.slotState 2, t.slotState 4, t.tku.op.isSome)) = some (.key, .free, false)
      ∧ after (exec .selectionComplete more) (fun t => (t.slotState 2, t.slotState 4, t.tku.op.isSome))
        = some (.tracking, .last, true) := by decide +kernel

/-! SWC's decisions -/

theorem test_wit_calibrationDecides :
    let s := { withOp (inState .calibrating) .calDecisionDue with swc.cal.provisional := some 0 }
    s.tku.op = some (operation .calDecisionDue) ∧ s.swc.cal.provisional = some 0 ∧ s.storing = true := by decide +kernel
/-- 04 R73, 05 R89: with 14 notices queued both notices find a place, with 15 the KEY notice alone. -/
theorem test_wit_calibrationDecides_notices :
    let s (n : Nat) : State := { withOp (inState .calibrating) .calDecisionDue with
      swc.cal.provisional := some 0, lku.notices := List.replicate n { seq := 0#8, body := .closureMissed 1 2 } }
    after (exec .calibrationDecision (s 14)) (fun t => (t.lku.notices.length, t.lku.seq, t.lku.flags.noticeLost)) = some (16, 2#8, false)
      ∧ after (exec .calibrationDecision (s 15)) (fun t => (t.lku.notices.length, t.lku.seq, t.lku.flags.noticeLost)) = some (16, 2#8, true)
      ∧ after (exec .calibrationDecision (s 0)) (fun t => t.lku.notices.getLast?.map Notice.body)
        = some (some (.session 1 .calibrating .sweeping none (some .right) 1 0)) := by decide +kernel
/-- 05 R90: no reference; a second qualifying frame at the least estimate; one short of it at the counts where the timeout and NO_SWEEP become due, and one before. -/
theorem test_wit_calibrationDecides_judged :
    let s (st : SessionState) (p : Option (Fin 8)) (n : Nat) : State :=
      { withOp (inState st) .finished with swc.cal := { provisional := p, count := n, run := some true } }
    let stage (t : State) := t.tku.op.map TrackOp.stage
    (s .calibrating none 0).tku.op = some (operation .finished) ∧ (s .calibrating none 0).heldAsKey 2 = false
      ∧ ((s .calibrating none 0).decideFrame (resultOf 5 0 .locked)).swc.cal.provisional = some 2
      ∧ stage ((s .calibrating (some 0) 0).decideFrame (resultOf 5 960 .locked)) = some .calDecisionDue
      ∧ stage ((s .calibrating (some 0) 44).decideFrame (resultOf 5 959 .locked)) = some .calTimeoutDue
      ∧ stage ((s .calibrating (some 0) 43).decideFrame (resultOf 5 959 .locked)) = none
      ∧ stage ((s .recalibrating (some 0) 89).decideFrame (resultOf 5 959 .locked)) = some .noSweepDue
      ∧ stage ((s .recalibrating (some 0) 88).decideFrame (resultOf 5 (-960) .locked)) = none := by decide +kernel
/-- CALIBRATION_TIMEOUT with and without a reference. -/
theorem test_wit_calibrationTimesOut :
    let s := withOp (inState .calibrating) .calTimeoutDue
    s.tku.op = some (operation .calTimeoutDue) ∧ s.storing = true ∧ s.swc.cal.provisional = none
      ∧ ({ s with swc.cal.provisional := some 0 }).swc.cal.provisional = some 0 := by decide +kernel
theorem test_wit_dueStepsTaken_pace :
    ({ withOp sweeping .paceDue with swc.pace.candidate := some .fast }).swc.pace.candidate = some .fast := rfl
/-- 05 R96: the boundaries of the classes; a run of 2 and of 1 of a candidate, another candidate, the reported class, LOST. -/
theorem test_wit_dueStepsTaken_classes :
    paceClass armedConfig 385 = .fast ∧ paceClass armedConfig 384 = .ok ∧ paceClass armedConfig 153 = .slow
      ∧ paceClass armedConfig 154 = .ok
      ∧ (let s := { judged 0 0 with swc.pace := { candidate := some .fast, run := 2 } }
         let r := { resultOf 5 100 .locked with su := 385 }
         (s.paceStep (operation .finished) r).tku.op.map TrackOp.stage = some .paceDue
          ∧ ({ s with swc.pace.run := 1 }.paceStep (operation .finished) r).swc.pace.run = 2
          ∧ ({ s with swc.pace.candidate := some .slow }.paceStep (operation .finished) r).swc.pace
            = { candidate := some .fast, run := 1 }
          ∧ (s.paceStep (operation .finished) { r with lock := .lost }).swc.pace.run = 0) := by decide +kernel
/-- 05 R95, R97: the stall count one short of its limit and at it, and a position 16 sixteenths beyond the mark; the closure window at its ends. -/
theorem test_wit_dueStepsTaken_stall :
    (let s := { judged 0 12273 with swc.stallCount := 89 }
     s.tku.op = some (operation .finished) ∧ (operation .finished).position.1 = 12288
      ∧ (s.stallStep (operation .finished) (resultOf 5 0 .locked)).tku.op.map TrackOp.stage = some .stalledDue
      ∧ ({ s with swc.stallCount := 88 }.stallStep (operation .finished) (resultOf 5 0 .locked)).swc.stallCount = 89
      ∧ ({ s with swc.highWater := some 12272 }.stallStep (operation .finished) (resultOf 5 0 .locked)).swc.stallCount = 0)
      ∧ (let o (u : Int) := { operation .finished with position := (u, 0) }
         ((judged 0 0).windowStep (o 137808) (resultOf 5 0 .locked)).swc.state = .closing
          ∧ ((judged 0 0).windowStep (o 137807) (resultOf 5 0 .locked)).swc.state = .sweeping
          ∧ ({ judged 0 0 with swc.state := .closing }.windowStep (o 176208) (resultOf 5 0 .locked)).swc.endCause
            = some .closureMissed
          ∧ ({ judged 0 0 with swc.state := .closing }.windowStep (o 176207) (resultOf 5 0 .locked)).swc.endCause = none
          ∧ ({ judged 0 0 with swc.config := some { armedConfig with extent := .partialSweep } }.cfg.extent = .partialSweep)) := by
  decide +kernel
/-- Step 5 with a change of state: entering CLOSING with a closure run of 1, and the two notices of CLOSURE_MISSED. -/
theorem test_wit_dueStepsTaken_notices :
    let o (u : Int) := { operation .finished with position := (u, 0) }
    let closing := { judged 0 0 with cvm.closureRun := 1 }.windowStep (o 137808) (resultOf 5 0 .locked)
    let missed := { judged 0 0 with swc.state := .closing }.windowStep (o 176208) (resultOf 5 0 .locked)
    closing.cvm.closureRun = 0
      ∧ closing.lku.notices.map Notice.body = [.session 1 .sweeping .closing none (some .right) 1 0]
      ∧ missed.lku.notices.map Notice.body
        = [.session 1 .closing .finishing (some .closureMissed) (some .right) 1 0, .closureMissed 1 5] := by decide +kernel
/-- With and without a place for the key. -/
theorem test_wit_closureAccepted :
    (withOp sweeping (.closureDue 10065 (-2))).keyResources = true
      ∧ ({ withOp sweeping (.closureDue 10065 (-2)) with smu.queue := [.ordinary 1, .ordinary 2] }).keyResources = false := by
  decide +kernel
/-- 08 R147: a qualifying measurement with a closure run of 1, and of 0. -/
theorem test_wit_closureAccepted_run :
    let r := { resultOf 691 1760 .locked with
      closure := some { cls := .good, n := 6, m := 6, est := some (-1500, -14), memory := false } }
    let s := { withOp (inState .closing) .finished with swc.keys := [keyOf 14 148000 .committed none] }
    s.tku.op = some (operation .finished) ∧ 0 ≤ s.sgn * r.au ∧ s.closureMeasure (s.positionOf r) r = some (10065, 56)
      ∧ (({ s with cvm.closureRun := 1 }).decideFrame r).tku.op.map TrackOp.stage = some (.closureDue 10065 56)
      ∧ (s.decideFrame r).cvm.closureRun = 1 := by decide +kernel
/-- 08 R147: a frame below 0 and a measurement that is none set the run to 0; the measured width at 3 % of Uc and beyond it. -/
theorem test_wit_closureAccepted_noRun :
    let r (au : Int) (ecu : Int) := { resultOf 691 au .locked with
      closure := some { cls := .good, n := 6, m := 6, est := some (ecu, -14), memory := false } }
    let s := { withOp (inState .closing) .finished with swc.keys := [keyOf 14 148000 .committed none], cvm.closureRun := 1 }
    let um (ecu : Int) := (s.closureMeasure (s.positionOf (r 1760 ecu)) (r 1760 ecu)).map Prod.fst
    s.swc.state = .closing ∧ s.sgn * (r (-1) 0).au < 0 ∧ (s.decideFrame (r (-1) 0)).cvm.closureRun = 0
      ∧ um (-2656) = some 10354 ∧ um (-2660) = none
      ∧ (s.decideFrame (r 1760 (-2660))).cvm.closureRun = 0 := by decide +kernel
/-- 08 R149: at Um = 385 strip 3 holds the last column: OPEN, FINAL, FINAL once SENDING, SENDING; strip 4 lies beyond, a held one too. -/
theorem test_wit_closureAccepted_strips :
    let s (st : StripState) (x : Option Transfer) : State := { withOp (inState .closing) (.closureDue 385 0) with
      cvm.strips := [stripOf 2 .opened false, stripOf 3 st false, stripOf 4 .opened false, { stripOf 5 .opened false with slot := .held 5 }]
      opu.xfer := x }
    let out (s : State) := after (exec .closureAccepted s) (fun t => t.cvm.strips.map (fun q => (q.width, q.last, q.wrap)))
    let plain := (128, false, false)
    out (s .opened none) = some [plain, (1, true, false), (128, false, true), plain]
      ∧ out (s .final none) = some [plain, (128, true, true), (128, false, true), plain]
      ∧ out (s .final (some (transferOf 0 true))) = some [plain, plain, (128, false, true), plain]
      ∧ out (s .sending (some (transferOf 0 false))) = some [plain, plain, (128, false, true), plain]
      ∧ (s .final (some (transferOf 0 true))).sentBefore 3 = true ∧ (s .final none).sentBefore 3 = false := by decide +kernel
theorem test_wit_waitingKeyTaken :
    let s := { withOp sweeping (.keyWaiting .bridged) with swc.keys := [keyOf 0 0 .pinned (some 0)] }
    s.tku.op = some (operation (.keyWaiting .bridged)) ∧ s.keyResources = true ∧ s.swc.keys ≠ [] := by decide +kernel

/-- FINISHING after a stop, with a key and a LAST frame `a` sixteenths ahead of it. -/
def stopping (au : Int) : State :=
  let s := (inState .finishing).putSlot 4 .last (frameOf 6)
  { s with
    swc := { s.swc with endCause := some .userStop, keys := [keyOf 0 0 .pinned (some 0)], lastResult := some (resultOf 6 au .locked) } }

/-- A waiting TAIL key; a waiting key of FINISHING; key 63. -/
theorem test_wit_waitingKeyTaken_tail :
    (let s := { stopping 768 with swc.tail := .waiting }
     s.tku.op = none ∧ s.swc.tail = .waiting ∧ s.firstIn .last = some 4 ∧ s.keyResources = true ∧ s.swc.keys ≠ []
      ∧ s.swc.lastResult = some (resultOf 6 768 .locked))
      ∧ (withOp (inState .finishing) (.keyWaiting .normal)).storing = false
      ∧ ({ withOp sweeping (.keyWaiting .normal) with swc.keys := List.replicate 63 (keyOf 0 0 .released none) }).swc.keys.length = 63
      ∧ (withOp sweeping (.keyWaiting .normal)).slotState 2 = .tracking := by decide +kernel
/-- A waiting key with tunables pending; a waiting CLOSURE key in CLOSING and in FINISHING. -/
theorem test_wit_waitingKeyTaken_closure :
    let r := { resultOf 5 3072 .locked with
      closure := some { cls := .good, n := 6, m := 5, est := some (-1500, -14), memory := false } }
    let s (st : SessionState) (kind : KeyKind) : State := { withOp (inState st) (.keyWaiting kind) with
      tku.op := some { operation (.keyWaiting kind) with result := some r }
      swc.keys := [keyOf 0 0 .pinned (some 0)], swc.closurePending := true, swc.pendingTunables := some { radius := some 3 } }
    let out (st : SessionState) := after (exec .takeKey (s st .closure)) (fun t => (t.swc.closurePending, t.swc.endCause, t.swc.state))
    let more (st : SessionState) (kind : KeyKind) := after (exec .takeKey (s st kind)) (fun t =>
      (t.swc.config.map SessionConfig.radius, t.swc.keys.getLast?.map KeyRecord.v))
    (s .closing .closure).keyResources = true ∧ out .closing = some (false, some .closed, .finishing)
      ∧ out .finishing = some (false, none, .finishing) ∧ more .closing .closure = some (some 6, some (-2360))
      ∧ more .sweeping .normal = some (some 3, some (-2304)) := by decide +kernel
/-- The notice of a TAIL key, taken with tunables pending. -/
theorem test_wit_waitingKeyTaken_tailNotice :
    let s := { stopping 768 with swc.tail := .waiting, swc.pendingTunables := some { radius := some 3 }, swc.framesPerKey := 4 }
    s.swc.tail = .waiting ∧ s.keyResources = true
      ∧ after (exec .takeKey s) (fun t => (t.swc.framesPerKey, t.swc.pendingTunables, t.lku.notices.length)) = some (0, some { radius := some 3 }, 1) := by
  decide +kernel
/-- The three clauses: at the least advance; the same without a place; one sixteenth short. -/
theorem test_wit_tailKeyDecided :
    (let s := stopping 768
     s.swc.state = .finishing ∧ s.swc.endCause = some .userStop ∧ s.tku.op = none ∧ s.swc.tail = .notMade
      ∧ s.swc.keys ≠ [] ∧ s.firstIn .last = some 4 ∧ s.swc.lastResult = some (resultOf 6 768 .locked)
      ∧ s.tailQualifies (resultOf 6 768 .locked) = true ∧ s.keyResources = true)
      ∧ (let s := { stopping 768 with smu.queue := [.ordinary 1, .ordinary 2] }
         s.tailQualifies (resultOf 6 768 .locked) = true ∧ s.keyResources = false)
      ∧ (stopping 767).tailQualifies (resultOf 6 767 .locked) = false := by decide +kernel
/-- R76's conditions as the statement spells them, at 768 and at 767, at Amax and beyond it, at the canvas limit; and no slot LAST. -/
theorem test_wit_tailKeyDecided_spelled :
    let ok (a u : Int) : Bool := decide (armedConfig.atAdv / 4 ≤ a ∧ a ≤ armedConfig.amax
      ∧ (u + 4 * a + 8) / 16 + armedConfig.wf ≤ 128 * armedConfig.maxStrips)
    ok 768 0 = true ∧ ok 767 0 = false ∧ ok 6144 0 = true ∧ ok 6145 0 = false
      ∧ ok 768 1014791 = true ∧ ok 768 1014792 = false
      ∧ (let s := (stopping 768).setSlotState 4 .free
         s.firstIn .last = none ∧ s.tku.op = none ∧ s.swc.tail = .notMade
          ∧ after (exec .tailKeyDecision s) (fun t => t.swc.tail) = some .made) := by decide +kernel
theorem test_wit_finalKeyMarked :
    let s := { stopping 0 with swc.tail := .made }
    s.swc.state = .finishing ∧ s.tku.op = none ∧ s.swc.keys ≠ [] ∧ s.blu.mark = none ∧ s.swc.tail = .made
      ∧ ({ stopping 0 with swc.endCause := some .gap }).tailCalled = false ∧ State.reset.swc.keys = [] := by decide +kernel
/-- FINISHING with work left and a command queued, with none left, and without a key. -/
theorem test_wit_finalKeyMarked_done :
    (let s := { stopping 768 with pending := [.tailKeyDecision] }
     s.FinishingHasWork ∧ s.swc.state = .finishing ∧ ∃ t, step s = .next t)
      ∧ (let s := { stopping 0 with blu.mark := some 0, cvm.lastCommit := true }
         s.swc.state = .finishing ∧ s.FinishingDone ∧ s.swc.keys ≠ [])
      ∧ (inState .finishing).FinishingDone ∧ (inState .finishing).swc.keys = [] := by
  refine ⟨⟨?_, rfl, _, rfl⟩, ⟨rfl, ?_, ?_⟩, ?_, rfl⟩
  · unfold State.FinishingHasWork State.FinishingDone; decide +kernel
  · unfold State.FinishingDone; decide +kernel
  · decide +kernel
  · unfold State.FinishingDone; decide +kernel

/-! Seams, commits and the canvas: keys of the least configuration, so that no view has pixels -/

def twoKeys (job : SeamJob) (run : Option SeamRun) : State :=
  { sweeping with
    swc := { sweeping.swc with config := some default, keys := [keyOf 0 0 .pinned (some 0), keyOf 1 3072 .pinned (some 1)] }
    smu := { queue := [job], run := run } }

/-- A free place in the commit queue, and none. -/
theorem test_wit_seamJobCompletes :
    let s := twoKeys (.ordinary 1) (some {})
    s.smu.run = some { rd := {}, held := false } ∧ s.smu.queue = [.ordinary 1] ∧ s.nextSeamRead = none
      ∧ s.swc.keys[1 - 1]? = some (keyOf 0 0 .pinned (some 0)) ∧ s.swc.keys[1]? = some (keyOf 1 3072 .pinned (some 1))
      ∧ s.blu.queue.length < 2 ∧ 2 ≤ ({ s with blu.queue := [default, default] }).blu.queue.length := by decide +kernel
/-- A commit that enters an empty queue and one that enters behind another; the next seam job: an ordinary one, a closure job, none. -/
theorem test_wit_seamJobCompletes_begins :
    let s (next : List SeamJob) (commits : List Commit) : State :=
      { twoKeys (.ordinary 1) (some {}) with smu.queue := .ordinary 1 :: next, blu.queue := commits }
    let out (next : List SeamJob) (commits : List Commit) := after (exec .seamJobDone (s next commits)) (fun t =>
      (t.blu.queue.length, t.blu.run.isSome, t.smu.run))
    (s [] []).smu.run = some { rd := {}, held := false } ∧ (s [] []).smu.queue = .ordinary 1 :: [] ∧ (s [] []).blu.queue = []
      ∧ out [] [] = some (1, true, none) ∧ out [.ordinary 2] [] = some (1, true, some {})
      ∧ out [.closure 1] [default] = some (2, false, none) := by decide +kernel
/-- The closure job of key 1. -/
theorem test_wit_seamJobCompletes_closure :
    let s := twoKeys (.closure 1) (some {})
    s.smu.run = some { rd := {}, held := false } ∧ s.smu.queue = [.closure 1] ∧ s.nextSeamRead = none
      ∧ s.swc.keys[1]? = some (keyOf 1 3072 .pinned (some 1)) ∧ s.swc.keys[0]? = some (keyOf 0 0 .pinned (some 0))
      ∧ s.blu.queue.length < 2 ∧ 2 ≤ ({ s with blu.queue := [default, default] }).blu.queue.length := by decide +kernel
theorem test_wit_queuesMove_closure :
    let s := { twoKeys (.closure 1) none with swc.keys := [keyOf 0 0 .committed (some 0), keyOf 1 3072 .pinned (some 1)] }
    s.smu.run = none ∧ s.smu.queue = [.closure 1] ∧ s.swc.keys[1 - 1]? = some (keyOf 0 0 .committed (some 0)) := by
  decide +kernel
theorem test_wit_queuesMove :
    (let s := twoKeys (.ordinary 1) (some { rd := {}, held := true })
     s.smu.run = some { rd := {}, held := true } ∧ s.smu.queue = [.ordinary 1] ∧ (s.keyOr 1).source ≠ .closure
      ∧ s.blu.queue.length < 2)
      ∧ (let s := { stopping 0 with blu.mark := some 0 }
         s.blu.mark = some 0 ∧ s.swc.endCause ≠ some .closed ∧ s.blu.finalEntered = false ∧ 0 ≤ s.blu.entered
          ∧ s.blu.queue.length < 2) := by decide +kernel
/-- The spans: a seam of one row, an accepted closure, and an empty commit queue before each entry. -/
theorem test_wit_queuesMove_spans :
    (let k := { keyOf 0 0 .seamed (some 0) with seam := some [300] }
     let s := { twoKeys (.ordinary 1) (some { rd := {}, held := true }) with swc.keys := [k, keyOf 1 3072 .pinned (some 1)] }
     s.blu.queue = [] ∧ s.swc.keys[1 - 1]? = some k ∧ k.seam = some (300 :: [])
      ∧ after (exec .commitEnter s) (fun t => t.blu.run.map CommitRun.spanHi) = some (some 292))
      ∧ (let s := { twoKeys (.closure 1) (some { rd := {}, held := true }) with cvm.um := some 10065 }
         s.smu.queue = [.closure 1] ∧ s.blu.queue = [] ∧ s.swc.keys[1]? = some (keyOf 1 3072 .pinned (some 1))
          ∧ s.cvm.um = some 10065
          ∧ after (exec .commitEnter s) (fun t => t.blu.run.map CommitRun.spanHi) = some (some 192))
      ∧ (let s := { stopping 0 with blu.mark := some 0 }
         s.blu.queue = [] ∧ s.swc.keys[0]? = some (keyOf 0 0 .pinned (some 0))
          ∧ after (exec .finalCommitEnter s) (fun t => t.blu.run.map CommitRun.spanHi) = some (some 1920)) := by
  decide +kernel
/-- The span of a commit whose seam is absent. A CLOSED session, also after its RELEASE: the closure commit has entered, and the mark enters nothing. -/
theorem test_wit_queuesMove_final :
    (let s := twoKeys (.ordinary 1) (some { rd := {}, held := true })
     s.blu.queue = [] ∧ s.swc.keys[1 - 1]? = some (keyOf 0 0 .pinned (some 0)) ∧ (keyOf 0 0 .pinned (some 0)).seam = none
      ∧ after (exec .commitEnter { s with swc.config := some armedConfig }) (fun t => t.blu.run.map CommitRun.spanHi) = some (some 1920))
      ∧ after (exec .commitEnter (twoKeys (.closure 1) (some { rd := {}, held := true }))) (fun t => t.blu.finalEntered) = some true
      ∧ (let s := { inState .done with blu.finalEntered := true, blu.mark := some 1, blu.entered := 1, swc.endCause := some .closed }
         s.blu.finalEntered = true ∧ after (exec .sessionRelease (asked s 0x15#8 [])) (fun t => (t.swc.endCause, t.blu.finalEntered, t.finalCommitDue))
          = some (none, true, false))
      ∧ ({ inState .done with swc.endCause := some .closed }).swc.endCause = some .closed ∧ State.reset.blu.mark = none := by decide +kernel

def commitRun (cursor : Int) : CommitRun := { spanLo := 0, spanHi := 384, wrap := none, cursor := cursor }

def committing (kind : CommitKind) (key : Nat) (cursor : Int) : State :=
  { sweeping with
    swc := { sweeping.swc with keys := [keyOf 0 0 .committed (some 0), keyOf 1 3072 .seamed (some 1)], config := some { armedConfig with extent := .partialSweep } }
    blu := { Blu.reset with state := .writing, queue := [{ kind := kind, key := key }], run := some (commitRun cursor) } }

/-- The last strip of a span: OPEN in the table; not in the table with its slot free; its slot taken under WAIT. -/
theorem test_wit_stripRequestAnswered :
    (let s := committing .ordinary 1 256
     s.blu.run = some (commitRun 256) ∧ s.blu.state = .writing ∧ (commitRun 256).cursor < (commitRun 256).spanHi
      ∧ s.nextBlu = none ∧ ((commitRun 256).nextPart false).strip = 2
      ∧ ({ s with cvm.strips := [stripOf 2 .opened false] }).stripAt 2 = some (stripOf 2 .opened false)
      ∧ s.stripAt 2 = none ∧ s.occupantOf 2 = none
      ∧ (let o := { stripOf 2 .final false with index := 130 }
         let u := { s with cvm.strips := [o] }
         u.stripAt 2 = none ∧ u.occupantOf 2 = some o ∧ u.cfg.policy = .wait)) := by decide +kernel
/-- OVERWRITE: a FINAL occupant with its mark clear; one with the mark; one that is SENDING. -/
theorem test_wit_stripRequestAnswered_overwrite :
    let s (st : StripState) (e : Bool) : State :=
      { committing .ordinary 1 256 with
        swc.config := some { armedConfig with extent := .partialSweep, policy := .overwrite }
        cvm.strips := [{ stripOf 2 st e with index := 130 }], cvm.outQueue := [130] }
    (s .final false).cfg.policy = .overwrite ∧ (s .final false).stripAt 2 = none
      ∧ (s .final false).occupantOf 2 = some { stripOf 2 .final false with index := 130 }
      ∧ after (exec .stripOpenRequest (s .final false)) (fun t => (t.cvm.strips.map Strip.index, t.cvm.outQueue, t.cvm.discarded))
        = some ([2], [], 1)
      ∧ after (exec .stripOpenRequest (s .final true)) (fun t => t.blu.state) = some .waiting
      ∧ after (exec .stripOpenRequest (s .sending false)) (fun t => t.blu.state) = some .waiting := by decide +kernel
/-- 08 R137, R139, R149: a DAMAGED occupant counts; strip 2 opened before an acceptance, as the strip of the last column, and beyond Um. -/
theorem test_wit_stripRequestAnswered_fresh :
    let s (um : Option Int) : State :=
      { committing .ordinary 1 256 with
        swc.config := some { armedConfig with extent := .partialSweep, policy := .overwrite }
        cvm.strips := [{ stripOf 2 .final false with index := 130, damaged := true }], cvm.outQueue := [130], cvm.um := um }
    let out (um : Option Int) : Option (Nat × List (Nat × Bool × Bool)) := after (exec .stripOpenRequest (s um)) (fun t => (t.cvm.damaged, t.cvm.strips.map (fun q => (q.width, q.last, q.wrap))))
    out none = some (1, [(128, false, false)]) ∧ out (some 385) = some (1, [(128, false, false)])
      ∧ out (some 384) = some (1, [(128, true, false)]) ∧ out (some 257) = some (1, [(1, true, false)])
      ∧ out (some 256) = some (1, [(128, false, true)])
      ∧ (s none).stripAt 130 = some { stripOf 2 .final false with index := 130, damaged := true } := by
  refine ⟨?_, ?_, ?_, ?_, ?_, ?_⟩ <;> decide +kernel
/-- A discarded strip that OPU counts and one that it does not. -/
theorem test_wit_stripRequestAnswered_sent :
    let s (x : Option Transfer) : State :=
      { committing .ordinary 1 256 with
        swc.config := some { armedConfig with extent := .partialSweep, policy := .overwrite }
        cvm.strips := [{ stripOf 2 .final false with index := 130 }], cvm.outQueue := [130]
        opu := { state := .idle, number := 4, xfer := x } }
    let x : Transfer := { transferOf 0 false with strip := 130 }
    (s none).sentBefore 130 = false ∧ (s (some x)).sentBefore 130 = true
      ∧ after (exec .stripOpenRequest (s none)) (fun t => (t.blu.run.bind CommitRun.part).map StripPart.created) = some (some true) := by
  decide +kernel
theorem test_wit_ordinaryCommitCompletes :
    let s := committing .ordinary 1 384
    s.blu.run = some (commitRun 384) ∧ s.blu.queue = [{ kind := .ordinary, key := 1 }] ∧ s.blu.state = .writing
      ∧ (commitRun 384).spanHi ≤ (commitRun 384).cursor ∧ s.nextBlu = none
      ∧ s.swc.keys[1 - 1]? = some (keyOf 0 0 .committed (some 0)) ∧ s.swc.keys[1]? = some (keyOf 1 3072 .seamed (some 1))
      ∧ (keyOf 0 0 .committed (some 0)).slot = some 0 := by decide +kernel
/-- The commit for key 0; strips that end at the frontier, that end beyond it, and held ones. -/
theorem test_wit_ordinaryCommitCompletes_zero :
    let s := committing .ordinary 0 384
    let h : Strip := { stripOf 0 .opened false with slot := .held 0 }
    s.blu.run = some (commitRun 384) ∧ s.blu.queue = [{ kind := .ordinary, key := 0 }] ∧ s.blu.state = .writing
      ∧ s.nextBlu = none ∧ s.swc.keys[0]? = some (keyOf 0 0 .committed (some 0))
      ∧ after (exec .commitComplete { s with cvm.strips := [h, stripOf 2 .opened false, stripOf 3 .opened false] })
          (fun t => (t.cvm.strips.map Strip.state, t.cvm.outQueue)) = some ([.opened, .final, .opened], [2]) := by
  decide +kernel
theorem test_wit_finalCommitCompletes :
    let s := committing .final 1 384
    s.blu.run = some (commitRun 384) ∧ s.blu.queue = [{ kind := .final, key := 1 }] ∧ s.blu.state = .writing
      ∧ (commitRun 384).spanHi ≤ (commitRun 384).cursor ∧ s.nextBlu = none
      ∧ s.swc.keys[1]? = some (keyOf 1 3072 .seamed (some 1)) := by decide +kernel
/-- The last strip's width and the order of the output queue: below the frontier, the last strip, held. -/
theorem test_wit_finalCommitCompletes_order :
    let s := { committing .final 1 384 with blu.run := some { commitRun 384 with spanHi := 380 } }
    let h : Strip := { stripOf 0 .opened false with slot := .held 0 }
    let l := { stripOf 3 .opened false with wrap := true }
    (committing .closure 0 384).blu.queue = [{ kind := .closure, key := 0 }] ∧ (committing .closure 0 384).nextBlu = none
      ∧ ({ committing .closure 0 384 with cvm.um := some 10065 }).cvm.um ≠ none
      ∧ after (exec .commitComplete { s with cvm.strips := [h, stripOf 2 .opened false, l] })
          (fun t => (t.cvm.strips.map (fun q => (q.width, q.last)), t.cvm.outQueue))
        = some ([(128, false), (124, true), (128, false)], [2, 3, 0]) := by decide +kernel
/-- A second commit in the queue when one completes, and none; a final commit completes last. -/
theorem test_wit_commitCompletes_next :
    let c : Commit := { kind := .final, key := 1 }
    let s (k : CommitKind) (more : List Commit) : State := { committing k 1 384 with blu.queue := { kind := k, key := 1 } :: more }
    let out (k : CommitKind) (more : List Commit) := after (exec .commitComplete (s k more)) (fun t =>
      (t.blu.state, t.blu.run.map (fun r => (r.spanLo, r.spanHi)), t.blu.queue.length))
    out .ordinary [] = some (.idle, none, 0) ∧ out .ordinary [c] = some (.writing, some (384, 2112), 1)
      ∧ out .final [] = some (.idle, none, 0) ∧ (s .ordinary [c]).blu.state = .writing := by
  refine ⟨?_, ?_, ?_, ?_⟩ <;> decide +kernel

/-! Buffer memory, strip output -/

/-- A whole write and a merge, the latter over a clean and over an uncorrectable word; the last word addressed. -/
theorem test_wit_writesComplete :
    (∀ w ∈ [wholeWrite, mergeWrite], (granted (some w)).MemoryCanonical
      ∧ (granted (some w)).grant = some { access := { who := .igu, addr := 8, write := some w }, live := true }
      ∧ w.addr = 8 ∧ w.addr + 8 ≤ addressedBytes ∧ w.bytes.length = 8)
      ∧ wholeWrite.whole = true ∧ mergeWrite.whole = false ∧ readOutcome none .uncorrectable = .uncorrectable
      ∧ readOutcome none .clean ≠ .uncorrectable ∧ addressedBytes - 8 + 8 ≤ addressedBytes := by
  refine ⟨fun w hw => ?_, by decide, by decide, by decide, by decide, by decide⟩
  have h : w = wholeWrite ∨ w = mergeWrite := by simpa using hw
  rcases h with rfl | rfl <;> exact ⟨by unfold State.MemoryCanonical; decide, rfl, rfl, by decide, rfl⟩
/-- The writers: a line buffer with one write left and with two, a prepare pass, and BLU's strip part with a spoilt pixel, with holes at the top of their count, with a failed merge. -/
theorem test_wit_writesComplete_writers :
    (let b (l : List WordWrite) : LineBuffer := { slot := 0, writes := l }
     let s (l : List WordWrite) := { granted (some wholeWrite) with igu.lineBuffers := [b l, b [mergeWrite]] }
     after (exec (.memoryAccessComplete .clean) (s [wholeWrite])) (fun t => t.igu.lineBuffers) = some [b [mergeWrite]]
      ∧ after (exec (.memoryAccessComplete .clean) (s [wholeWrite, mergeWrite])) (fun t => t.igu.lineBuffers)
        = some [b [mergeWrite], b [mergeWrite]])
      ∧ after (exec (.memoryAccessComplete .clean) { granted (some wholeWrite) with igu.prep := some { slot := 0 } })
          (fun t => t.igu.prep.map Prep.written) = some (some 1)
      ∧ (let s (w : WordWrite) (n : Nat) : State :=
          { committing .ordinary 1 256 with
            blu.run := some { commitRun 256 with part := some { (commitRun 256).nextPart false with strip := 3 } }
            cvm.strips := [{ stripOf 3 .opened false with holes := n }]
            grant := some { access := { who := .blu, addr := 8, write := some w }, live := true } }
         let out (w : WordWrite) (n : Nat) (o : EccOutcome) : Option (List (Nat × Bool) × Option Nat) := after (exec (.memoryAccessComplete o) (s w n))
            (fun t => (t.cvm.strips.map (fun q => (q.holes, q.damaged)), (t.blu.run.bind CommitRun.part).map StripPart.writes))
         out { wholeWrite with holes := 5 } 65530 .clean = some ([(65535, false)], some 1)
          ∧ out { wholeWrite with holes := 6 } 65530 .clean = some ([(65535, false)], some 1)
          ∧ out { wholeWrite with spoilt := true } 0 .uncorrectable = some ([(0, true)], some 1)
          ∧ out mergeWrite 0 .uncorrectable = some ([(0, true)], some 1)
          ∧ out mergeWrite 0 .clean = some ([(0, false)], some 1)) := by
  refine ⟨⟨?_, ?_⟩, ?_, ?_, ?_, ?_, ?_, ?_⟩ <;> decide +kernel
theorem test_wit_readsComplete :
    (∃ g, (granted none).grant = some g ∧ g.access.write = none ∧ g.access.addr + 8 ≤ addressedBytes)
      ∧ addressedBytes < (addressedBytes - 7) + 8 := ⟨⟨_, rfl, rfl, by decide⟩, by decide⟩
/-- The note of a read, good and failed; a read of each requester, live and abandoned; for OPU with its transfer. -/
theorem test_wit_readsComplete_readers :
    (∀ (rd : ReadSet) (a : Nat), rd.note a true = { done := rd.done ++ [a], failed := rd.failed ++ [a] }
        ∧ rd.note a false = { rd with done := rd.done ++ [a] })
      ∧ (∀ (who : Requester) (live : Bool),
        ({ State.reset with grant := some { access := { who := who, addr := 8, write := none }, live := live } }).grant
          = some { access := { who := who, addr := 8, write := none }, live := live })
      ∧ readOutcome (some .uncorrectable) .clean = .uncorrectable ∧ readOutcome none .clean = .clean
      ∧ readOutcome (some .singleBit) .clean = .singleBit
      ∧ ({ State.reset with opu.xfer := some (transferOf 0 false) }).opu.xfer = some (transferOf 0 false) :=
  ⟨fun _ _ => ⟨rfl, rfl⟩, fun _ _ => rfl, by decide, by decide, by decide, rfl⟩
theorem test_wit_transferStarts :
    ∀ n ∈ [0, 65534, 65535], let s := { withStrip sweeping .final false with pins.sopRdy := true, opu.number := n }
    s.opu.state = .idle ∧ s.pins.sopRdy = true ∧ s.cvm.outQueue = [3] ∧ s.stripAt 3 = some (stripOf 3 .final false)
      ∧ s.opu.number = n := by decide +kernel

/-- Strip 3 SENDING with a line presented and its next line's reads complete. -/
def sending (line : Nat) (errorSeen : Bool) : State :=
  { withStrip sweeping .sending false with
    pins.sopRdy := true
    opu := { state := .sending, number := 1
             xfer := some { transferOf line errorSeen with
               rd := { done := (List.range 16).map (fun w => stripBase (.ring 3) + line * 128 + 8 * w), failed := [] } } } }

theorem test_wit_linesPresented :
    let s := sending 0 false
    s.opu.state = .sending ∧ (s.opu.xfer.map Transfer.line) = some 0 ∧ s.stripAt 3 = some (stripOf 3 .sending false)
      ∧ s.pins.sopRdy = true ∧ 0 < s.stripLines ∧ s.nextLineRead = none := by decide +kernel
/-- The beats: a beat before the last, the last of a line and of a trailer; between lines with lines left and with none; a cut; SOP_RDY low; a read still due. -/
theorem test_wit_linesPresented_beats :
    let p (beat : Nat) (lv : Bool) : Pins := { Pins.reset with sopRdy := true, sopFv := true, sopLv := lv, sopLine := List.replicate 7 0#16, sopBeat := beat }
    (let s := { sending 0 false with pins := p 5 true }
     s.pending = [] ∧ s.pins.sopRdy = true ∧ s.pins.sopLv = true ∧ s.pins.sopBeat + 1 < s.pins.sopLine.length)
      ∧ (let s := { sending 0 false with pins := p 6 true }; s.pins.sopLine.length ≤ s.pins.sopBeat + 1
          ∧ s.opu.xfer.map Transfer.trailer = some false)
      ∧ ({ sending 0 false with opu.xfer := some { transferOf 1680 false with trailer := true } }).opu.xfer.map Transfer.trailer = some true
      ∧ (let s := { sending 1679 false with pins := p 7 false }; s.pins.sopLv = false ∧ 1679 < s.stripLines ∧ s.stripLines ≤ 1680)
      ∧ ({ sending 5 false with opu.state := .cutting, pins := p 3 false }).opu.state = .cutting
      ∧ ({ sending 0 false with opu.xfer := some (transferOf 0 false) }).nextLineRead ≠ none := by decide +kernel
/-- All lines sent, with and without an error; and a transfer being cut off. -/
theorem test_wit_transfersEnd :
    (∀ e ∈ [false, true], let s := sending 1680 e
      s.opu.state = .sending ∧ (s.opu.xfer.map Transfer.errorSeen) = some e ∧ s.stripAt 3 = some (stripOf 3 .sending false)
      ∧ s.pins.sopRdy = true ∧ s.stripLines ≤ 1680 ∧ s.cvm.wait = none)
      ∧ (let w : CanvasWait := { strip := 131, occupant := 3, occupantState := .sending }
         let s := { sending 1680 false with cvm.wait := some w }
         s.cvm.wait = some w ∧ w.strip ≠ 3 ∧ w.occupant = 3 ∧ s.stripAt w.strip = none
          ∧ ({ w with occupant := 4 } : CanvasWait).occupant ≠ 3)
      ∧ (let s := { sending 5 false with opu.state := .cutting }
         s.opu.state = .cutting ∧ s.opu.xfer.isSome = true ∧ s.pins.sopRdy = true) := by decide +kernel
/-- 09 R155: the strip took WRAP after all its lines: a trailer begun before carries the flags it was built with, one built only now carries WRAP. -/
theorem test_trailer_keepsItsFlags :
    let s (begun : Bool) := { sending 1680 false with
      cvm.strips := [{ stripOf 3 .sending false with wrap := true }]
      opu.xfer := some { transferOf 1680 false with trailer := begun } }
    after (exec .transferComplete (s true)) (fun t => t.pins.sopLine[5]?) = some (some 0#16)
      ∧ after (exec .transferComplete (s false)) (fun t => t.pins.sopLine[5]?) = some (some 2#16) := by decide +kernel
/-- 05 R100: the last strip leaves in FINISHING with all other work done. -/
theorem test_wit_finalKeyMarked_lastStrip :
    let s := { sending 1680 false with swc := { sweeping.swc with state := .finishing, keys := [keyOf 0 0 .released none] }
                                       blu.mark := some 0, cvm.lastCommit := true }
    s.opu.state = .sending ∧ s.stripAt 3 = some (stripOf 3 .sending false) ∧ s.stripLines ≤ 1680 ∧ s.cvm.outQueue = [3]
      ∧ after (exec .transferComplete s) (fun t => (t.swc.state, t.lku.notices.map Notice.body))
        = some (.done, [.strip 1 3 .sent 0 false 1, .session 1 .finishing .done none (some .right) 1 0]) := by decide +kernel

/-! The control link -/

theorem test_wit_transactionsMoveMessages :
    State.reset.pins.lkSelected = false
      ∧ (let s := { State.reset with lku.replies := [{ type := 0x81#8, tag := 0#8, body := .ident }], lku.tx := .reply [0xC5#8] }
         s.lku.replies = [{ type := 0x81#8, tag := 0#8, body := .ident }] ∧ s.lku.tx = .reply [0xC5#8])
      ∧ (let s := { State.reset with lku.notices := [{ seq := 0#8, body := .closureMissed 1 2 }], lku.tx := .notice [0xC5#8] }
         s.lku.replies = [] ∧ s.lku.notices = [{ seq := 0#8, body := .closureMissed 1 2 }] ∧ s.lku.tx = .notice [0xC5#8])
      ∧ (∀ tx ∈ [Outbound.reply [1#8], .notice [1#8], .lost [1#8], .reply [1#8, 2#8], .notice [1#8, 2#8], .lost [1#8, 2#8], .nothing, .undriven],
         let s := { State.reset with pins.lkSelected := true, lku.tx := tx }
         s.pins.lkSelected = true ∧ s.lku.rx = .hunt ∧ s.lku.tx = tx)
      ∧ (let s := { State.reset with pins.lkSelected := true, lku.rx := .frame [2#8] }
         s.pins.lkSelected = true ∧ s.lku.rx = .frame [2#8])
      ∧ (∀ n ∈ [15, 16], ({ State.reset with lku.notices := List.replicate n { seq := 0#8, body := .closureMissed 1 2 } }).lku.notices.length = n) := by
  decide +kernel
/-- 11 R170: of a message of two bytes, one byte clocked keeps it queued, two take it out, and a third reads 0x00. -/
theorem test_message_leaves_with_its_last_byte :
    let s := { State.reset with pins.lkSelected := true, lku.notices := [{ seq := 0#8, body := .closureMissed 1 2 }], lku.tx := .notice [1#8, 2#8] }
    after (exec (.linkTransactionEnd [0#8]) s) (fun t => (t.lku.notices.length, t.lku.tx)) = some (1, .undriven)
      ∧ after (exec (.requestReceived [0#8, 0#8, 0#8]) s) (fun t => (t.lku.notices.length, t.lku.tx, t.lku.tx.nextByte))
        = some (0, .nothing, some 0#8) := by decide +kernel
/-- The longest body, with the queue one short of full. -/
theorem test_wit_frameOfRequestReceived :
    let s := { State.reset with pins.lkSelected := true, lku.requests := List.replicate 7 default }
    s.pins.lkSelected = true ∧ s.lku.rx = .hunt ∧ (∀ b ∈ [0#8, 0xC4#8], b ≠ 0xC5#8)
      ∧ (List.replicate 240 (0xC5#8 : Byte)).length ≤ 240 ∧ s.lku.requests.length < 8 := by decide +kernel
/-- A full request queue with 8 reply places taken and with 9; with a reply that leaves while the frame comes in. -/
theorem test_wit_frameOfRequestReceived_full :
    let s (n : Nat) : State := { State.reset with
      pins.lkSelected := true, lku.requests := List.replicate 8 default
      lku.replies := List.replicate n { type := 0#8, tag := 0#8, body := .ident }, lku.tx := .reply [1#8] }
    let u (n : Nat) := { s n with lku.tx := .nothing }
    8 ≤ (s 8).lku.requests.length ∧ ((u 8).shifted 6).lku.placesTaken < 9 ∧ 9 ≤ ((u 9).shifted 6).lku.placesTaken
      ∧ ((s 9).shifted 6).lku.placesTaken < 9 := by decide +kernel
theorem test_wit_badFrameDiscarded :
    let s := { State.reset with pins.lkSelected := true }
    s.pins.lkSelected = true ∧ s.lku.rx = .hunt ∧ 240 < (241#8 : Byte).toNat
      ∧ crc16 [0x02#8, 0#8, 0#8] ≠ 0xA2#8 ++ 0xFD#8 := by decide +kernel
/-- Requests dispatched, of each type that a statement is about, with the bodies it names at the ends of their ranges. -/
theorem test_wit_executes : ∀ (s : State) (type : Byte) (body : List Byte),
    (asked s type body).Executes type 7#8 body [] := fun _ _ _ => ⟨rfl, rfl⟩
theorem test_wit_dispatchAndQueries :
    (let s := { State.reset with lku.requests := [default], lku.replies := List.replicate 8 { type := 0#8, tag := 0#8, body := .ident } }
     s.lku.executing = false ∧ s.lku.requests ≠ [] ∧ s.lku.replies.length < 9)
      ∧ requestTypes.contains 0x81#8 = false ∧ (asked State.reset 0x81#8 []).Executes 0x81#8 7#8 [] []
      ∧ (asked (inState .done) 0x16#8 []).swc.state = .done := by
  refine ⟨by decide, by decide, ⟨rfl, rfl⟩, rfl⟩
/-- The canvas width with Um fixed, with a key and no Um, and without either; the frontier strip; a part CUTTING. -/
theorem test_wit_dispatchAndQueries_fields :
    let s (um : Option Int) (keys : List KeyRecord) : State := { inState .done with cvm.um := um, swc.keys := keys }
    (s (some 10065) []).summaryRecord.canvasWidth = 10065 ∧ (s none [keyOf 0 8 .released none]).summaryRecord.canvasWidth = 1921
      ∧ (s none []).summaryRecord.canvasWidth = 0
      ∧ (asked (s none []) 0x16#8 []).Executes 0x16#8 7#8 [] [] ∧ (inState .finishing).swc.state = .finishing
      ∧ ({ sweeping with blu.frontier := 383 }).statusRecord.frontierStrip = 2
      ∧ ({ sweeping with opu.state := .cutting }).statusRecord.output.code = 1#8 :=
  ⟨by decide +kernel, by decide +kernel, by decide +kernel, ⟨rfl, rfl⟩, rfl, by decide +kernel, by decide⟩
/-- Index 63 with a record, 64, row at the top of its range; strip 1,023 and 1,024. -/
theorem test_wit_tablesRead :
    (asked busy 0x18#8 (field 1 63 ++ field 4 2147483647)).Executes 0x18#8 7#8 (field 1 63 ++ field 4 2147483647) []
      ∧ (asked busy 0x18#8 (field 1 64 ++ field 4 0)).Executes 0x18#8 7#8 (field 1 64 ++ field 4 0) []
      ∧ (asked busy 0x19#8 (field 2 1023)).Executes 0x19#8 7#8 (field 2 1023) []
      ∧ (asked busy 0x19#8 (field 2 1024)).Executes 0x19#8 7#8 (field 2 1024) [] :=
  ⟨⟨rfl, rfl⟩, ⟨rfl, rfl⟩, ⟨rfl, rfl⟩, ⟨rfl, rfl⟩⟩
theorem test_wit_faultsCleared :
    (∀ place ∈ [0#8, 1#8, 2#8, 3#8, 255#8], (asked busy 0x03#8 [1#8, place]).Executes 0x03#8 7#8 [1#8, place] [])
      ∧ 3 ≤ (3#8 : Byte).toNat ∧ 3 ≤ (255#8 : Byte).toNat ∧ (asked busy 0x03#8 [0#8]).Executes 0x03#8 7#8 [0#8] [] :=
  ⟨fun _ _ => ⟨rfl, rfl⟩, by decide, by decide, ⟨rfl, rfl⟩⟩
/-- The ends of the range, in a storing state and outside. -/
theorem test_wit_gyroSumsIncrements :
    (asked busy 0x20#8 (field 4 (-2147483648) ++ field 4 2147483647)).Executes 0x20#8 7#8
        (field 4 (-2147483648) ++ field 4 2147483647) []
      ∧ -(2 ^ 31) ≤ (-2147483648 : Int) ∧ (2147483647 : Int) < 2 ^ 31
      ∧ busy.storing = true ∧ (inState .done).storing = false :=
  ⟨⟨rfl, rfl⟩, by decide, by decide, by decide, by decide⟩
/-- 03 R48: the five clears of the accumulator. -/
theorem test_wit_gyroSumsIncrements_clears :
    let g : Gyro := { yaw := 2000000, pitch := -2000000, received := true }
    let s (st : SessionState) (type : Byte) : State := asked { inState st with tku.gyro := g } type []
    (∀ c ∈ [Instr.sessionStart, .pinReset], after (exec c (s .armed 0x11#8)) (fun t => t.tku.gyro) = some {})
      ∧ after (exec .sessionAbort (s .sweeping 0x14#8)) (fun t => t.tku.gyro) = some {}
      ∧ after (exec .sessionRelease (s .done 0x15#8)) (fun t => t.tku.gyro) = some {}
      ∧ after (exec .engineReset (s .sweeping 0x3F#8)) (fun t => t.tku.gyro) = some {} := by decide +kernel

/-! Session requests -/

/-- IDLE, ARMED and neither; a body that passes and an empty one; the build under way. -/
theorem test_wit_armSteps :
    State.reset.swc.arming = none ∧ State.reset.swc.state = .idle ∧ (inState .armed).swc.state = .armed
      ∧ (inState .done).swc.state ≠ .idle ∧ (inState .done).swc.state ≠ .armed
      ∧ State.reset.armOutcome armBody = .ok armedConfig ∧ State.reset.armOutcome [] = .error (.badField, some 0)
      ∧ (let s := asked { State.reset with swc.arming := some armedConfig, swc.id := 65535 } 0x10#8 armBody
         s.Executes 0x10#8 7#8 armBody [] ∧ s.swc.arming = some armedConfig ∧ s.swc.state = .idle) :=
  ⟨rfl, rfl, rfl, by decide, by decide, test_arm_outcome, by rfl, ⟨rfl, rfl⟩, rfl, rfl⟩
/-- The marks of the ARM of 05 section 5.2.1. -/
def armMarks : List FieldMark :=
  [.value 1920, .value 1408, .value 1, .value 0, .value 1, .useDefault, .useDefault, .value 70] ++ List.replicate 5 .useDefault
    ++ [.value 9] ++ List.replicate 8 .useDefault
/-- The checked body: its bytes, its values in their fields, what each field comes to; and a body that fails at its first and at its second field. -/
theorem test_wit_armSteps_fields :
    armBytes armMarks = armBody ∧ armMarks.length = 22
      ∧ (armTable.zip armMarks).all (fun e => match e.2 with
        | .value v => decide (v < 256 ^ e.1.bytes)
        | .useDefault | .usePrevious | .useProfile => true) = true
      ∧ ((armTable.zip armMarks).zip (List.range 22)).map (fun e => armField none e.2 e.1.1 e.1.2)
        = armedConfig.codes.map (fun v => some (some v))
      ∧ armField none 0 ⟨2, false, 320, 2048, none⟩ (.value 321) = none
      ∧ armField none 0 ⟨2, false, 320, 2048, none⟩ .useDefault = none
      ∧ armField (some armedConfig.codes) 1 ⟨2, false, 256, 1536, none⟩ .usePrevious = some (some 1408)
      ∧ armField none 1 ⟨2, false, 256, 1536, none⟩ .usePrevious = none
      ∧ armField none 16 ⟨2, true, 0, 65535, some 960⟩ .useProfile = some none
      ∧ armField none 15 ⟨2, true, 15, 600, some 90⟩ .useProfile = none := by decide +kernel
/-- 05 R82 checks 2 to 4 at their boundaries: an invalid slot, f16 at 8 Wf and below it, 256 Wf and above it, a circle one strip too long. -/
theorem test_wit_armSteps_checks :
    let s (f16 : Nat) (ok : Bool) : State := { State.reset with psc.shadow.slots := Vector.replicate 4 { valid := ok, fields := { deliveredProfile with f16 := f16 } } }
    let out (s : State) (b : List FieldMark) : Option (ResultCode × Option Nat) := match s.armOutcome (armBytes b) with | .ok _ => none | .error e => some e
    out (s 25600 false) armMarks = some (.profileInvalid, some 2) ∧ out (s 15359 true) armMarks = some (.badField, some 2)
      ∧ out (s 15360 true) armMarks = none ∧ out (s 491521 true) armMarks = some (.badField, some 2)
      ∧ out (s 25600 true) (armMarks.set 19 (.value 82)) = none
      ∧ out (s 25600 true) (armMarks.set 19 (.value 81)) = some (.badField, some 4) := by decide +kernel
/-- Each state that a clause names, and a TUNE of every tunable. -/
theorem test_wit_startTuneStop :
    (∀ st ∈ [SessionState.idle, .armed, .sweeping, .finishing, .done], ∀ type body,
      (asked (inState st) type body).Executes type 7#8 body [] ∧ (asked (inState st) type body).swc.state = st
        ∧ (asked (inState st) type body).swc.config = some armedConfig)
      ∧ tuneBody [7#8, 0#8, 255#8, 1#8, 0#8, 2#8, 8#8, 3#8, 2#8, 4#8, 1#8, 5#8, 120#8, 6#8, 2#8, 88#8]
        = some { overlapPct := some 60, radius := some 2, lockCount := some 8, coastLimit := some 2
                 fastFrames := some 1, slowFrames := some 120, stallFrames := some 600 }
      ∧ (inState .closing).storing = true ∧ (inState .closing).swc.closurePending = false
      ∧ ({ inState .closing with swc.closurePending := true }).swc.closurePending = true :=
  ⟨fun _ _ _ _ => ⟨⟨rfl, rfl⟩, rfl, rfl⟩, by decide +kernel, by decide, rfl, rfl⟩
/-- 05 R86: values at and beyond their ranges, of a field given twice the last; a place beyond the list, alone and after an item. -/
theorem test_wit_startTuneStop_items :
    let items := [(0, 19), (1, 13), (2, 0), (3, 255), (4, 9), (5, 3), (6, 65535), (6, 14)]
    TuneItems items ∧ items.length < 256 ∧ tunedTo items 0 = some 20 ∧ tunedTo items 1 = some 12 ∧ tunedTo items 2 = some 1
      ∧ tunedTo items 3 = some 32 ∧ tunedTo items 4 = some 8 ∧ tunedTo items 5 = some 4 ∧ tunedTo items 6 = some 15
      ∧ tunedTo [(6, 601)] 6 = some 600 ∧ tunedTo [(6, 601)] 5 = none
      ∧ TuneItems [] ∧ ([] : List (Nat × Nat)).length < (1#8 : Byte).toNat ∧ 7 ≤ (7#8 : Byte).toNat
      ∧ tuneBody [2#8, 0#8, 40#8, 255#8] = none := by
  refine ⟨fun e h => ?_, by decide, by decide, by decide, by decide, by decide, by decide, by decide, by decide, by decide, by decide,
    fun e h => (nomatch h), by decide, by decide, by decide +kernel⟩
  simp only [List.mem_cons, List.not_mem_nil, or_false] at h
  rcases h with rfl | rfl | rfl | rfl | rfl | rfl | rfl | rfl <;> exact ⟨_, rfl, by decide⟩
/-- 05 R83, R87: fast_frames applied alone raises slow_frames to two above it. -/
theorem test_tune_keeps_slow_above_fast :
    let c := { armedConfig with fastFrames := 2, slowFrames := 4 }
    (c.tune { fastFrames := some 8 }).slowFrames = 10 ∧ (c.tune {}).slowFrames = 4 ∧ (c.tune { slowFrames := some 120 }).slowFrames = 120 := by
  decide
theorem test_wit_abortAndRelease :
    (asked busy 0x14#8 []).Executes 0x14#8 7#8 [] [] ∧ busy.swc.state ≠ .idle ∧ State.reset.swc.state = .idle
      ∧ (sending 5 false).opu.state = .sending ∧ (sending 5 false).stripAt 3 = some (stripOf 3 .sending false)
      ∧ ({ busy with opu.state := .halted }).opu.state = .halted ∧ ({ busy with opu.state := .cutting }).opu.state = .cutting
      ∧ (asked (inState .done) 0x15#8 []).Executes 0x15#8 7#8 [] [] ∧ (inState .done).swc.state = .done :=
  ⟨⟨rfl, rfl⟩, by decide, rfl, rfl, rfl, rfl, rfl, ⟨rfl, rfl⟩, rfl⟩
/-- 09 R160: the line in progress ends at the beat reached. -/
theorem test_cut_at_beat :
    after (exec .sessionAbort (asked { sending 5 false with pins := { Pins.reset with sopFv := true, sopLv := true, sopLine := [1#16, 2#16, 3#16], sopBeat := 2 } } 0x14#8 []))
      (fun t => (t.pins.sopLine, t.pins.sopLv, t.pins.sopFv, t.opu.state)) = some ([1#16, 2#16], false, true, .cutting) := by
  decide +kernel
/-- Not HALTED; HALTED with strip 3 marked; actions 0, 1, 2 and 255. -/
theorem test_wit_outputResumes :
    busy.opu.state ≠ .halted ∧ 2 ≤ (2#8 : Byte).toNat ∧ 2 ≤ (255#8 : Byte).toNat
      ∧ (∀ a : Byte, let s := asked { withStrip sweeping .final true with opu.state := .halted } 0x21#8 [a]
         s.Executes 0x21#8 7#8 [a] [] ∧ s.opu.state = .halted ∧ s.cvm.outQueue = [3]
          ∧ s.stripAt 3 = some (stripOf 3 .final true) ∧ (stripOf 3 .final true).error = true ∧ s.cvm.wait = none) :=
  ⟨by decide, by decide, by decide, fun _ => ⟨⟨rfl, rfl⟩, rfl, rfl, rfl, rfl, rfl⟩⟩
/-- HALTED with no strip queued, and with an unmarked one at the head; a wait on the halted strip's slot, and another wait. -/
theorem test_wit_outputResumes_other :
    (let s := asked { sweeping with opu.state := .halted } 0x21#8 [1#8]
     s.opu.state = .halted ∧ s.cvm.outQueue = [] ∧ s.Executes 0x21#8 7#8 [1#8] [])
      ∧ (let s := asked { withStrip sweeping .final false with opu.state := .halted } 0x21#8 [0#8]
         s.cvm.outQueue = [3] ∧ s.stripAt 3 = some (stripOf 3 .final false) ∧ (stripOf 3 .final false).error = false)
      ∧ (let w : CanvasWait := { strip := 131, occupant := 3, occupantState := .final }
         let s := asked { withStrip sweeping .final true with opu.state := .halted, cvm.wait := some w } 0x21#8 [1#8]
         s.cvm.wait = some w ∧ w.strip ≠ 3 ∧ w.occupant = 3 ∧ s.stripAt w.strip = none
          ∧ ({ w with occupant := 4 } : CanvasWait).occupant ≠ 3) :=
  ⟨⟨rfl, rfl, rfl, rfl⟩, ⟨rfl, rfl, rfl⟩, rfl, by decide, rfl, by decide, by decide⟩
/-- A halted part outside FINISHING, and in FINISHING with work left. -/
theorem test_wit_outputResumes_halt :
    (let s := asked { sweeping with opu.state := .halted, lku.conds.outputHalted := true } 0x21#8 [1#8]
     s.FinishingHasWork ∧ s.opu.state = .halted ∧ s.cvm.outQueue = []
      ∧ after (exec .outputResumeSkip s) (fun t => (t.opu.state, t.lku.conds.outputHalted, t.lku.notices.length)) = some (.idle, false, 0))
      ∧ ({ stopping 768 with opu.state := .halted }).FinishingHasWork := by
  refine ⟨⟨(nomatch ·), rfl, rfl, by decide +kernel⟩, ?_⟩
  unfold State.FinishingHasWork State.FinishingDone; decide +kernel

/-! The profile store and the resets -/

/-- Fields at the ends of their ranges and one beyond; a burn running and none; and for the reads names 0, 3, 4, 5 and 255. -/
theorem test_wit_profileStaged :
    ({ f16 := 1048575, cxOff := -16384, cyOff := 16384, textureMin := 65535 } : ProfileFields).fits = true
      ∧ ({ f16 := 0, cxOff := -16385, cyOff := 16385, textureMin := 0 } : ProfileFields).fits = true
      ∧ (∀ (type : Byte) (body : List Byte), (asked State.reset type body).Executes type 7#8 body [])
      ∧ State.reset.psc.burn = none ∧ (0#8 : Byte) = BitVec.ofNat 8 (0 : Fin 4).val ∧ (3#8 : Byte) = BitVec.ofNat 8 (3 : Fin 4).val
      ∧ (4#8 : Byte).toNat ≤ 4 ∧ 4 < (5#8 : Byte).toNat ∧ 4 < (255#8 : Byte).toNat
      ∧ ({ State.reset with psc.burn := some (.protect default) }).psc.burn.isSome = true :=
  ⟨by decide, by decide, fun _ _ => ⟨rfl, rfl⟩, rfl, rfl, rfl, by decide, by decide, by decide, rfl⟩
/-- Slots 3 and 4, masks 15 and 16. -/
theorem test_wit_burnRequestsChecked :
    (∀ (type : Byte) (body : List Byte), (asked State.reset type body).Executes type 7#8 body [])
      ∧ (3#8 : Byte) = BitVec.ofNat 8 (3 : Fin 4).val ∧ 4 ≤ (4#8 : Byte).toNat ∧ ¬ 16 ≤ (15#8 : Byte).toNat ∧ 16 ≤ (16#8 : Byte).toNat :=
  ⟨fun _ _ => ⟨rfl, rfl⟩, rfl, by decide, by decide, by decide⟩
/-- A good and a bad protection record, a bad profile record, a session that is not IDLE, a burn running. -/
theorem test_wit_reloadAndRead :
    (asked State.reset 0x35#8 []).Executes 0x35#8 7#8 [] [] ∧ State.reset.psc.burn = none ∧ State.reset.swc.state = .idle
      ∧ (inState .done).swc.state ≠ .idle ∧ ({ State.reset with psc.burn := some (.protect default) }).psc.burn.isSome = true
      ∧ State.reset.psc.protection.crc = protectionCrc State.reset.psc.protection.fields
      ∧ (0#16 : BitVec 16) ≠ profileCrc deliveredProfile ∧ (0#16 : BitVec 16) ≠ protectionCrc deliveredProtection :=
  ⟨⟨rfl, rfl⟩, rfl, rfl, by decide, rfl, by decide +kernel, by decide +kernel, by decide +kernel⟩
/-- Each kind of burn; a read-back that differs in its fields, and in its CRC alone. -/
theorem test_wit_burnCompletes :
    (∀ job ∈ [BurnJob.profile 3 deliveredProfile, .protect deliveredProtection, .lock deliveredProtection],
      ({ State.reset with psc.burn := some job }).psc.burn = some job)
      ∧ { deliveredProfile with f16 := 1 } ≠ deliveredProfile ∧ { deliveredProtection with mask := 1#4 } ≠ deliveredProtection
      ∧ (0#16 : BitVec 16) ≠ profileCrc deliveredProfile ∧ (0#16 : BitVec 16) ≠ protectionCrc deliveredProtection := by
  decide +kernel
theorem test_wit_resetsLeave :
    (asked busy 0x3F#8 []).Executes 0x3F#8 7#8 [] [] ∧ busy.psc.burn = none
      ∧ ({ busy with psc.burn := some (.profile 3 deliveredProfile) }).psc.burn.isSome = true
      ∧ (sending 5 false).opu.state = .sending ∧ ({ busy with opu.state := .halted }).opu.state = .halted
      ∧ State.reset.grant = none ∧ (granted (some wholeWrite)).MemoryCanonical
      ∧ (∀ w : WordWrite, ∃ g, (granted (some w)).grant = some g ∧ g.access.write = some w)
      ∧ (∀ job : BurnJob, ({ busy with psc.burn := some job }).psc.burn = some job)
      ∧ (∀ tx : Outbound, ({ busy with lku.tx := tx }).lku.tx = tx) :=
  ⟨⟨rfl, rfl⟩, rfl, rfl, rfl, rfl, rfl, by unfold State.MemoryCanonical; decide, fun _ => ⟨_, rfl, rfl⟩, fun _ => rfl, fun _ => rfl⟩

end Sys2Proof.Tests
end

section
/-! Rounding (00 R1): what `roundDiv` and `ceilDiv` leave of the dividend, and the settled O16. -/
namespace Sys2Proof.Proofs
open Sys2Proof.Machine

theorem roundDiv_of_nonneg {a : Int} (b : Int) (ha : 0 ≤ a) :
    roundDiv a b = (2 * a + b) / (2 * b) :=
  if_pos ha

/-- Rounding is odd: a dividend and its negation round alike, which is what makes halves go away from zero on both sides. -/
theorem roundDiv_neg_of_pos {a : Int} (b : Int) (ha : 0 < a) : roundDiv (-a) b = -roundDiv a b := by
  rw [roundDiv_of_nonneg b ha.le, roundDiv, if_neg (by omega), neg_neg]

theorem two_mul_sub_mul_roundDiv_mem_Ico {a b : Int} (ha : 0 ≤ a) (hb : 0 < b) :
    2 * (a - b * roundDiv a b) ∈ Set.Ico (-b) b := by
  rw [roundDiv_of_nonneg b ha]
  have hlow := Int.mul_ediv_self_le (x := 2 * a + b) (k := 2 * b) (by omega)
  have hhigh := Int.lt_mul_ediv_self_add (x := 2 * a + b) (k := 2 * b) (by omega)
  rw [mul_assoc] at hlow hhigh
  constructor <;> omega

/-- 00 R1: the multiple `m` of `b` is a nearest one to `a`, and where two are equally near it is the one away from zero. -/
def IsNearestMultiple (b a m : Int) : Prop :=
  2 * ((a - m).natAbs : Int) ≤ b ∧ (2 * ((a - m).natAbs : Int) = b → a.natAbs ≤ m.natAbs)

theorem IsNearestMultiple.neg {b a m : Int} (h : IsNearestMultiple b a m) : IsNearestMultiple b (-a) (-m) := by
  obtain ⟨hnear, hhalf⟩ := h
  have remainder : -a - -m = -(a - m) := by ring
  rw [IsNearestMultiple, remainder, Int.natAbs_neg, Int.natAbs_neg, Int.natAbs_neg]
  exact ⟨hnear, hhalf⟩

/-- Of the remainder's two bounds only the lower one is attained, so at a half the multiple is the one above `a`. -/
theorem roundDiv_nearest_of_nonneg {a b : Int} (ha : 0 ≤ a) (hb : 0 < b) :
    IsNearestMultiple b a (b * roundDiv a b) := by
  obtain ⟨hlow, hhigh⟩ := two_mul_sub_mul_roundDiv_mem_Ico ha hb
  constructor <;> omega

theorem roundDiv_nearest (a : Int) {b : Int} (hb : 0 < b) : IsNearestMultiple b a (b * roundDiv a b) := by
  rcases le_or_gt 0 a with ha | ha
  · exact roundDiv_nearest_of_nonneg ha hb
  · have hpos : 0 < -a := Int.neg_pos_of_neg ha
    have mirrored := (roundDiv_nearest_of_nonneg hpos.le hb).neg
    rwa [← mul_neg, ← roundDiv_neg_of_pos b hpos, neg_neg] at mirrored

theorem roundDiv_natCast (a b : Nat) : roundDiv (a : Int) (b : Int) = ((2 * a + b) / (2 * b) : Nat) := by
  rw [roundDiv_of_nonneg _ (Int.natCast_nonneg a)]
  push_cast
  rfl

theorem mul_ceilDiv_mem_Ico (a : Int) {b : Int} (hb : 0 < b) : b * ceilDiv a b ∈ Set.Ico a (a + b) := by
  have hlow := Int.mul_ediv_self_le (x := a + b - 1) (k := b) hb.ne'
  have hhigh := Int.lt_mul_ediv_self_add (x := a + b - 1) hb
  rw [ceilDiv]
  constructor <;> omega

/-- Settles O16: the remainder's bounds for a non-negative dividend, carried to a negative one by the oddness of `roundDiv`. -/
theorem roundingToNearest : Obligations.RoundingToNearest :=
  ⟨fun a _ hb => roundDiv_nearest a hb, fun a b _ => roundDiv_natCast a b, fun a _ hb => mul_ceilDiv_mem_Ico a hb⟩

end Sys2Proof.Proofs
end

section
/-! The limits of the frame ring (01 R10): the view of the state that they speak of, in a slot part and a session part, and the changes of the view that keep them. -/
namespace Sys2Proof.Proofs
open Sys2Proof.Machine

/-! ### What the limits speak of -/

/-- The part of the state that the limits of the ring speak of: the slots' states, the slot of the prepare pass, the slot and stage of the tracking operation, the session state, the slots of the keys and of the provisional reference, and the tail-key decision. -/
structure RingView where
  slots : Fin 8 → SlotState
  prep : Option (Fin 8)
  op : Option (Fin 8 × TrackStage)
  state : SessionState
  keys : List (Option (Fin 8))
  provisional : Option (Fin 8)
  tail : TailState

def opView (op : TrackOp) : Fin 8 × TrackStage := (op.slot, op.stage)

def ringView (s : State) : RingView :=
  { slots := s.slotState, prep := s.igu.prep.map Prep.slot, op := s.tku.op.map opView
    state := s.swc.state, keys := s.swc.keys.map KeyRecord.slot, provisional := s.swc.cal.provisional
    tail := s.swc.tail }

/-- 05 R90: a session state with a provisional reference. -/
abbrev Calibrates (st : SessionState) : Prop := st = .calibrating ∨ st = .recalibrating

/-- 05 R80: a session state before a START. -/
abbrev Rests (st : SessionState) : Prop := st = .idle ∨ st = .armed

/-- A stage from which a tracked frame is taken as a key (04 R71, 08 R148). -/
abbrev Takes (st : TrackStage) : Prop := (∃ kind, st = .keyWaiting kind) ∨ ∃ um vres, st = .closureDue um vres

/-- 04 R61, 05 R90: a slot is that of a key, or of the provisional reference. -/
def RingView.held (v : RingView) (i : Fin 8) : Bool :=
  decide (v.provisional = some i) || v.keys.any (fun k => decide (k = some i))

/-- 01 R10: the slots that are KEY or become KEY. -/
def RingView.pinned (v : RingView) : List (Fin 8) :=
  (List.finRange 8).filter (fun i => decide (v.slots i = .key) || v.held i)

theorem held_iff (v : RingView) (i : Fin 8) : v.held i = true ↔ v.provisional = some i ∨ some i ∈ v.keys := by
  simp [RingView.held]

theorem mem_pinned (v : RingView) (i : Fin 8) : i ∈ v.pinned ↔ v.slots i = .key ∨ v.held i = true := by
  simp [RingView.pinned]

theorem heldAsKey_eq_held (s : State) (i : Fin 8) : s.heldAsKey i = (ringView s).held i := by
  unfold RingView.held ringView State.heldAsKey
  rw [List.any_map]; rfl

theorem pinnedSlots_eq_pinned (s : State) : s.pinnedSlots = (ringView s).pinned := by
  unfold State.pinnedSlots RingView.pinned
  congr 1
  funext i
  unfold State.slotPinned
  rw [heldAsKey_eq_held]; rfl

/-- The slots that are or become KEY, in a view with no more of them. -/
theorem pinned_length_le {v w : RingView} (h : ∀ i ∈ w.pinned, i ∈ v.pinned) : w.pinned.length ≤ v.pinned.length :=
  (List.subperm_of_subset ((List.nodup_finRange 8).filter _) h).length_le

/-- The slots that are or become KEY, in a view with at most one more of them. -/
theorem pinned_length_le_succ {v w : RingView} {k : Fin 8} (h : ∀ i ∈ w.pinned, i = k ∨ i ∈ v.pinned) :
    w.pinned.length ≤ v.pinned.length + 1 :=
  (List.subperm_of_subset ((List.nodup_finRange 8).filter _) (fun i hi => List.mem_cons.mpr (h i hi))).length_le

/-- The limits of the ring that speak of its slots. -/
structure RingView.SlotLimits (v : RingView) : Prop where
  filling : ∀ i j : Fin 8, v.slots i = .filling → v.slots j = .filling → i = j
  preparing : ∀ i : Fin 8, v.slots i = .preparing → v.prep = some i
  tracking : ∀ i : Fin 8, v.slots i = .tracking → v.op.map Prod.fst = some i
  last : ∀ i j : Fin 8, v.slots i = .last → v.slots j = .last → i = j
  pinned : v.pinned.length ≤ 3
  key : ∀ i : Fin 8, v.slots i = .key → v.held i = true

/-- What the limits of the ring rest on: how the session, the key table and the tracking operation stand to one another. -/
structure RingView.SessionLimits (v : RingView) : Prop where
  reference : v.provisional ≠ none → Calibrates v.state
  calibration : Calibrates v.state → v.keys = []
  timeout : v.op.map Prod.snd = some .calTimeoutDue → v.keys = []
  taking : ∀ st, v.op.map Prod.snd = some st → Takes st → ¬ Calibrates v.state
  waiting : v.tail = .waiting → v.state = .finishing ∨ v.state = .done
  rest : Rests v.state → (∀ i : Fin 8, v.slots i = .free) ∧ v.op = none ∧ v.keys = []

def RingView.Limits (v : RingView) : Prop := v.SlotLimits ∧ v.SessionLimits

theorem ringView_op_eq_some {s : State} {st : TrackStage} :
    (ringView s).op.map Prod.snd = some st ↔ ∃ op, s.tku.op = some op ∧ op.stage = st := by
  cases h : s.tku.op <;> simp [ringView, opView, h]

theorem ringView_op_slot {s : State} {i : Fin 8} :
    (ringView s).op.map Prod.fst = some i ↔ ∃ op, s.tku.op = some op ∧ op.slot = i := by
  cases h : s.tku.op <;> simp [ringView, opView, h]

/-- The limits of the ring are those of its view. -/
theorem ringLimits_iff (s : State) : s.RingLimits ↔ (ringView s).Limits := by
  constructor
  · intro h
    refine ⟨⟨h.filling, fun i hi => ?_, fun i hi => ringView_op_slot.mpr (h.tracking i hi), h.last,
      pinnedSlots_eq_pinned s ▸ h.pinned, fun i hi => heldAsKey_eq_held s i ▸ h.key i hi⟩,
      ⟨h.reference, fun k => List.map_eq_nil_iff.mpr (h.calibration k), fun k => ?_, fun st k ht => ?_, h.waiting,
        fun k => ?_⟩⟩
    · exact Option.map_eq_some_iff.mpr (h.preparing i hi)
    · obtain ⟨op, ho, hs⟩ := ringView_op_eq_some.mp k
      exact List.map_eq_nil_iff.mpr (h.timeout op ho hs)
    · obtain ⟨op, ho, rfl⟩ := ringView_op_eq_some.mp k
      exact not_or.mpr (h.taking op ho ht)
    · obtain ⟨free, op, keys⟩ := h.rest k
      exact ⟨free, Option.map_eq_none_iff.mpr op, List.map_eq_nil_iff.mpr keys⟩
  · rintro ⟨h, k⟩
    refine ⟨h.filling, fun i hi => Option.map_eq_some_iff.mp (h.preparing i hi),
      fun i hi => ringView_op_slot.mp (h.tracking i hi), h.last, pinnedSlots_eq_pinned s ▸ h.pinned,
      fun i hi => heldAsKey_eq_held s i ▸ h.key i hi, k.reference, fun c => List.map_eq_nil_iff.mp (k.calibration c),
      fun op ho hs => List.map_eq_nil_iff.mp (k.timeout (ringView_op_eq_some.mpr ⟨op, ho, hs⟩)),
      fun op ho ht => not_or.mp (k.taking _ (ringView_op_eq_some.mpr ⟨op, ho, rfl⟩) ht), k.waiting, fun c => ?_⟩
    obtain ⟨free, op, keys⟩ := k.rest c
    exact ⟨free, Option.map_eq_none_iff.mp op, List.map_eq_nil_iff.mp keys⟩

/-- The limits depend on the view alone. -/
theorem limits_of_view {s t : State} (h : s.RingLimits) (e : ringView t = ringView s) : t.RingLimits := by
  rw [ringLimits_iff] at *
  rwa [e]

/-! ### Changes of the view -/

/-- A slot's move to a state. -/
def RingView.set (v : RingView) (i : Fin 8) (st : SlotState) : RingView :=
  { v with slots := fun j => if j = i then st else v.slots j }

/-- Slots may become FREE, and a slot that is not KEY may cease to be held. -/
theorem RingView.SlotLimits.fewer {v w : RingView} (h : v.SlotLimits) (slots : ∀ j, w.slots j = v.slots j ∨ w.slots j = .free)
    (prep : w.prep = v.prep) (op : w.op.map Prod.fst = v.op.map Prod.fst)
    (held : ∀ j, w.held j = true → v.held j = true)
    (key : ∀ j, w.slots j = .key → w.held j = true) : w.SlotLimits := by
  have back {st : SlotState} (hst : st ≠ .free) {j : Fin 8} (hj : w.slots j = st) : v.slots j = st := by
    rcases slots j with e | e
    · rw [← e, hj]
    · exact absurd (hj.symm.trans e) hst
  exact
    { filling := fun i j hi hj => h.filling i j (back (by decide) hi) (back (by decide) hj)
      preparing := fun i hi => prep.trans (h.preparing i (back (by decide) hi))
      tracking := fun i hi => op.trans (h.tracking i (back (by decide) hi))
      last := fun i j hi hj => h.last i j (back (by decide) hi) (back (by decide) hj)
      pinned := (pinned_length_le (fun i hi => (mem_pinned v i).mpr
        (((mem_pinned w i).mp hi).imp (back (by decide)) (held i)))).trans h.pinned
      key := key }

/-- 01 R10: what a slot's move to a state asks of the view before (`v`) and after (`w`). -/
def MayBecome (v w : RingView) (i : Fin 8) : SlotState → Prop
  | .filling => ∀ j, v.slots j ≠ .filling
  | .preparing => w.prep = some i
  | .tracking => w.op.map Prod.fst = some i
  | .last => ∀ j, v.slots j = .last → j = i
  | .key => v.held i = true
  | .free | .filledWait | .queued => True

/-- One slot moves; a PREPARING and a TRACKING slot beside it stay those of their work. -/
theorem RingView.SlotLimits.move {v w : RingView} {i : Fin 8} {st : SlotState} (h : v.SlotLimits)
    (slots : w.slots = (v.set i st).slots) (may : MayBecome v w i st)
    (prep : ∀ j, j ≠ i → v.slots j = .preparing → w.prep = v.prep)
    (op : ∀ j, j ≠ i → v.slots j = .tracking → w.op.map Prod.fst = v.op.map Prod.fst)
    (held : w.held = v.held) : w.SlotLimits := by
  have back {x : SlotState} {j : Fin 8} (hj : w.slots j = x) : (j = i ∧ st = x) ∨ (j ≠ i ∧ v.slots j = x) := by
    rw [slots] at hj
    by_cases e : j = i
    · exact .inl ⟨e, by simpa [RingView.set, e] using hj⟩
    · exact .inr ⟨e, by simpa [RingView.set, e] using hj⟩
  have key : ∀ j, w.slots j = .key → v.held j = true := fun j hj => by
    rcases back hj with ⟨rfl, rfl⟩ | ⟨_, e⟩
    · exact may
    · exact h.key j e
  refine { filling := fun j k hj hk => ?_, preparing := fun j hj => ?_, tracking := fun j hj => ?_,
           last := fun j k hj hk => ?_, pinned := ?_, key := fun j hj => held ▸ key j hj }
  · rcases back hj with ⟨rfl, rfl⟩ | ⟨_, ej⟩ <;> rcases back hk with ⟨rfl, ek⟩ | ⟨_, ek⟩
    · rfl
    · exact absurd ek (may k)
    · rw [ek] at may; exact absurd ej (may j)
    · exact h.filling j k ej ek
  · rcases back hj with ⟨rfl, rfl⟩ | ⟨ne, e⟩
    · exact may
    · exact (prep j ne e).trans (h.preparing j e)
  · rcases back hj with ⟨rfl, rfl⟩ | ⟨ne, e⟩
    · exact may
    · exact (op j ne e).trans (h.tracking j e)
  · rcases back hj with ⟨rfl, rfl⟩ | ⟨_, ej⟩ <;> rcases back hk with ⟨rfl, ek⟩ | ⟨_, ek⟩
    · rfl
    · exact (may k ek).symm
    · rw [ek] at may; exact may j ej
    · exact h.last j k ej ek
  · refine (pinned_length_le (fun j hj => (mem_pinned v j).mpr (.inr ?_))).trans h.pinned
    rcases (mem_pinned w j).mp hj with k | k
    · exact key j k
    · exact held ▸ k

/-- 04 R72: a key in a slot, where a KEY slot is left or the slot is held already. -/
theorem RingView.SlotLimits.addKey {v : RingView} {i : Fin 8} (h : v.SlotLimits)
    (room : v.pinned.length < 3 ∨ v.held i = true) : ({ v with keys := v.keys ++ [some i] } : RingView).SlotLimits := by
  have held (j : Fin 8) : ({ v with keys := v.keys ++ [some i] } : RingView).held j = true ↔ j = i ∨ v.held j = true := by
    simp only [held_iff, List.mem_append, List.mem_singleton, Option.some.injEq]
    tauto
  refine { h with pinned := ?_, key := fun j hj => (held j).mpr (.inr (h.key j hj)) }
  rcases room with k | k
  · refine (pinned_length_le_succ (k := i) (fun j hj => ?_)).trans k
    rw [mem_pinned, held] at hj
    rw [mem_pinned]
    tauto
  · refine (pinned_length_le (fun j hj => ?_)).trans h.pinned
    rw [mem_pinned, held] at hj
    rw [mem_pinned]
    rcases hj with e | rfl | e
    · exact .inl e
    · exact .inr k
    · exact .inr e

/-- Outside calibration, with a session begun, only a due timeout and a waiting tail key ask anything. -/
theorem RingView.SessionLimits.of_working {v : RingView} (cal : ¬ Calibrates v.state) (rest : ¬ Rests v.state)
    (provisional : v.provisional = none) (timeout : v.op.map Prod.snd = some .calTimeoutDue → v.keys = [])
    (waiting : v.tail = .waiting → v.state = .finishing ∨ v.state = .done) : v.SessionLimits where
  reference := fun k => absurd provisional k
  calibration := fun k => absurd k cal
  timeout := timeout
  taking := fun _ _ _ => cal
  waiting := waiting
  rest := fun k => absurd k rest

end Sys2Proof.Proofs
end

section
/-! The limits of the frame ring (01 R10): what each operation of the part does to the view of the ring, and that it keeps the limits. -/
namespace Sys2Proof.Proofs
open Sys2Proof.Machine

/-! ### The view after an operation -/

/-- An operation outside IGU, TKU and SWC keeps the view. -/
theorem ringView_of_frame {l : List Block} {s t : State} (h : SameOutside l s t)
    (hl : Block.igu ∉ l ∧ Block.tku ∉ l ∧ Block.swc ∉ l) : ringView t = ringView s := by
  have slots : t.slotState = s.slotState := by funext j; unfold State.slotState; rw [h.igu hl.1]
  unfold ringView
  rw [slots, h.igu hl.1, h.tku hl.2.1, h.swc hl.2.2]

theorem limits_of_frame {l : List Block} {s t : State} (h : s.RingLimits) (f : SameOutside l s t)
    (hl : Block.igu ∉ l ∧ Block.tku ∉ l ∧ Block.swc ∉ l) : t.RingLimits := limits_of_view h (ringView_of_frame f hl)

theorem ringView_notify (s : State) (b : NoticeBody) : ringView (s.notify b) = ringView s :=
  ringView_of_frame (notify_frame s b) (by decide)

theorem ringView_slots_set (s : State) (i : Fin 8) (x : FrameSlot) :
    ringView { s with igu.slots := s.igu.slots.set i x } = (ringView s).set i x.state := by
  have slots : ({ s with igu.slots := s.igu.slots.set i x } : State).slotState
      = fun j => if j = i then x.state else s.slotState j := by
    funext j
    unfold State.slotState
    rw [slots_get_set]
    split <;> rfl
  unfold ringView RingView.set
  rw [slots]

theorem ringView_setSlotState (s : State) (i : Fin 8) (st : SlotState) :
    ringView (s.setSlotState i st) = (ringView s).set i st := ringView_slots_set s i _
theorem ringView_freeSlot (s : State) (i : Fin 8) : ringView (s.freeSlot i) = (ringView s).set i .free :=
  ringView_slots_set s i _
theorem ringView_putSlot (s : State) (i : Fin 8) (st : SlotState) (r : FrameRecord) :
    ringView (s.putSlot i st r) = (ringView s).set i st := ringView_slots_set s i _

theorem ringView_freeSlots (s : State) (l : List (Fin 8)) :
    ringView (s.freeSlots l) = { ringView s with slots := fun j => if j ∈ l then .free else s.slotState j } := by
  have prep (s : State) : (s.freeSlots l).igu.prep = s.igu.prep := by
    induction l generalizing s with
    | nil => rfl
    | cons i l ih => exact ih (s.freeSlot i)
  have slots : (s.freeSlots l).slotState = fun j => if j ∈ l then .free else s.slotState j := by
    funext j
    unfold State.slotState
    rw [freeSlots_get]
    split <;> rfl
  have f := freeSlots_frame s l
  unfold ringView
  rw [slots, prep, f.tku (by decide), f.swc (by decide)]

theorem ringView_enterState (s : State) (a : SessionState) :
    ringView (s.enterState a) = { ringView s with state := a } := ringView_notify _ _

theorem ringView_setStage (s : State) (st : TrackStage) :
    ringView (s.setStage st) = { ringView s with op := (ringView s).op.map (fun e => (e.1, st)) } := by
  unfold ringView State.setStage
  cases s.tku.op <;> rfl

theorem ringView_askSelection (s : State) (k : SetKind) (i : Fin 8) :
    ringView (s.askSelection k i) = ringView s := by
  unfold ringView State.askSelection
  cases s.tku.op <;> rfl

theorem ringView_rebase (s : State) (r : FrameResult) : ringView (s.rebase r) = ringView s := rfl

theorem ringView_applyPending (s : State) : ringView s.applyPending = ringView s := by
  rw [applyPending_eq]; rfl

theorem ringView_addKey (s : State) (k : KeyRecord) :
    ringView (s.addKey k) = { ringView s with keys := (ringView s).keys ++ [k.slot] } := by
  unfold ringView State.addKey
  rw [List.map_append]; rfl

theorem ringView_recordKey (s : State) (k : KeyRecord) :
    ringView (s.recordKey k) = { ringView s with keys := (ringView s).keys ++ [k.slot] } := by
  rw [← ringView_addKey, recordKey_eq]; rfl

theorem ringView_notifyKey (s : State) (k : KeyRecord) : ringView (s.notifyKey k) = ringView s := by
  unfold State.notifyKey
  rw [notify_eq]; rfl

theorem ringView_takeKeyZero (s : State) (i : Fin 8) (m : Nat) (l : LockState) :
    ringView (s.takeKeyZero i m l) = { ringView s with keys := (ringView s).keys ++ [some i] } := by
  unfold State.takeKeyZero
  simp only [ringView_notifyKey, ringView_applyPending]
  split <;> simp only [ringView_askSelection, ringView_addKey] <;> rfl

theorem ringView_takeProvisional (s : State) (op : TrackOp) (r : FrameResult) :
    ringView (s.takeProvisional op r) = { ringView s with provisional := some op.slot } :=
  congrArg (fun v : RingView => { v with provisional := some op.slot }) (ringView_askSelection s .calibration op.slot)

/-! ### Slots that become FREE -/

/-- Of the view only slots change, and they become FREE. -/
def OnlyFrees (s t : State) : Prop :=
  ringView t = { ringView s with slots := t.slotState }
    ∧ ∀ j : Fin 8, t.slotState j = s.slotState j ∨ t.slotState j = .free

theorem OnlyFrees.refl (s : State) : OnlyFrees s s := ⟨rfl, fun _ => .inl rfl⟩

theorem OnlyFrees.trans {s t u : State} (h : OnlyFrees s t) (k : OnlyFrees t u) : OnlyFrees s u := by
  refine ⟨by rw [k.1, h.1], fun j => ?_⟩
  rcases k.2 j with e | e
  · rw [e]; exact h.2 j
  · exact .inr e

theorem OnlyFrees.foldl {α : Type} {f : State → α → State} (hf : ∀ s a, OnlyFrees s (f s a)) (xs : List α)
    (s : State) : OnlyFrees s (xs.foldl f s) := by
  induction xs generalizing s with
  | nil => exact .refl s
  | cons a as ih => exact (hf s a).trans (ih _)

theorem OnlyFrees.of_view {s t : State} (e : ringView t = ringView s) : OnlyFrees s t := by
  have slots : t.slotState = s.slotState := congrArg RingView.slots e
  exact ⟨by rw [slots, e]; rfl, fun j => .inl (congrFun slots j)⟩

theorem freeSlot_onlyFrees (s : State) (i : Fin 8) : OnlyFrees s (s.freeSlot i) := by
  refine ⟨rfl, fun j => ?_⟩
  rw [slotState_freeSlot]
  split
  · exact .inr rfl
  · exact .inl rfl

theorem freeSlots_onlyFrees (s : State) (l : List (Fin 8)) : OnlyFrees s (s.freeSlots l) :=
  .foldl freeSlot_onlyFrees l s

theorem withdrawLines_onlyFrees (s : State) (i : Fin 8) : OnlyFrees s (s.withdrawLines i) := .of_view rfl

theorem endUnaccepted_onlyFrees (s : State) (i : Fin 8) : OnlyFrees s (s.endUnaccepted i) :=
  ((withdrawLines_onlyFrees s i).trans (freeSlot_onlyFrees _ i)).trans (.of_view rfl)

theorem discardFrames_onlyFrees (s : State) : OnlyFrees s s.discardFrames :=
  (OnlyFrees.foldl (fun s i => (withdrawLines_onlyFrees s i).trans (freeSlot_onlyFrees _ i)) _ s).trans
    (freeSlots_onlyFrees _ _)

theorem OnlyFrees.slotLimits {s t : State} (f : OnlyFrees s t) (h : (ringView s).SlotLimits) :
    (ringView t).SlotLimits := by
  have held : (ringView t).held = (ringView s).held := by rw [f.1]; rfl
  refine h.fewer f.2 (by rw [f.1]) (by rw [f.1]) (fun j => held ▸ id) (fun j hj => ?_)
  rw [held]
  refine h.key j ?_
  rcases f.2 j with k | k
  · exact k.symm.trans hj
  · exact absurd (hj.symm.trans k) (by decide)

theorem OnlyFrees.limits {s t : State} (f : OnlyFrees s t) (h : s.RingLimits) : t.RingLimits := by
  rw [ringLimits_iff] at *
  obtain ⟨hs, hk⟩ := h
  refine ⟨f.slotLimits hs, ?_⟩
  rw [f.1]
  refine { hk with rest := fun k => ⟨fun j => ?_, (hk.rest k).2⟩ }
  rcases f.2 j with e | e
  · exact e.trans ((hk.rest k).1 j)
  · exact e

/-- 04 R76, R77: the tail-key decision is made. -/
theorem tailMade_limits {s : State} (h : s.RingLimits) : ({ s with swc.tail := .made } : State).RingLimits :=
  { h with waiting := fun k => (nomatch k) }

theorem dropLast_limits {s : State} (h : s.RingLimits) : s.dropLast.RingLimits :=
  tailMade_limits ((freeSlots_onlyFrees s _).limits h)

/-! ### The session's state -/

/-- The session goes on, from outside calibration, to a state in which it has begun and does not calibrate. -/
theorem state_limits {s : State} (h : s.RingLimits) {a : SessionState} (cal : ¬ Calibrates a) (rest : ¬ Rests a)
    (provisional : s.swc.cal.provisional = none) (waiting : s.swc.tail = .waiting → a = .finishing ∨ a = .done) :
    (s.enterState a).RingLimits := by
  rw [ringLimits_iff] at *
  rw [ringView_enterState]
  obtain ⟨hs, hk⟩ := h
  exact ⟨{ hs with }, .of_working cal rest provisional hk.timeout waiting⟩

/-- Outside calibration there is no provisional reference. -/
theorem provisional_none {s : State} (h : s.RingLimits) (k : ¬ Calibrates s.swc.state) :
    s.swc.cal.provisional = none := Classical.byContradiction (fun e => k (h.reference e))

theorem checkDone_limits {s : State} (h : s.RingLimits) : s.checkDone.RingLimits := by
  have done {t : State} (ht : t.RingLimits) (e : t.swc.state = .finishing) : (t.enterState .done).RingLimits :=
    state_limits ht (by decide) (by decide) (provisional_none ht (by rw [e]; decide)) (fun _ => .inr rfl)
  unfold State.checkDone
  split
  · next k =>
    split
    · exact done (dropLast_limits h) ((dropLast_state s).trans k.1)
    · exact done h k.1
  · exact h

theorem arbitrate_limits {s : State} (h : s.RingLimits) : s.arbitrate.RingLimits := limits_of_view h rfl

theorem settle_limits {s : State} (h : s.RingLimits) : s.settle.RingLimits := arbitrate_limits (checkDone_limits h)

/-! ### The end of a sweep (05 R98, R99) -/

/-- 05 R99: without a key the session drops its provisional reference, whose slot becomes FREE unless its frame is still TRACKING. -/
theorem dropProvisional_slotLimits {s : State} (h : (ringView s).SlotLimits) :
    (ringView s.dropProvisional).SlotLimits := by
  unfold State.dropProvisional
  split
  · next i keys prov =>
    have frees : OnlyFrees s (s.freeReference i) := by
      unfold State.freeReference
      split
      · exact .refl s
      · exact freeSlot_onlyFrees s i
    have kk : (ringView s).keys = [] := List.map_eq_nil_iff.mpr keys
    have notKey (j : Fin 8) : (s.freeReference i).slotState j ≠ .key := by
      intro hj
      have hh := (held_iff _ j).mp ((frees.slotLimits h).key j hj)
      rw [frees.1] at hh
      have e : i = j := by simpa [kk, show (ringView s).provisional = some i from prov] using hh
      subst e
      unfold State.freeReference at hj
      split at hj
      · next e => rw [e] at hj; cases hj
      · rw [slotState_freeSlot, if_pos rfl] at hj; cases hj
    have e : ringView { s.freeReference i with swc.cal.provisional := none }
        = { ringView (s.freeReference i) with provisional := none } := rfl
    rw [e]
    have hf := frees.slotLimits h
    have hk : (ringView (s.freeReference i)).keys = [] := by rw [frees.1]; exact kk
    refine hf.fewer (fun _ => .inl rfl) rfl rfl (fun j hj => ?_) (fun j hj => absurd hj (notKey j))
    simp [held_iff, hk] at hj
  · exact h

theorem dropProvisional_none {s : State} (h : s.swc.cal.provisional ≠ none → s.swc.keys = []) :
    s.dropProvisional.swc.cal.provisional = none := by
  unfold State.dropProvisional
  split
  · rfl
  · next k =>
    cases hp : s.swc.cal.provisional with
    | none => rfl
    | some i => exact absurd hp (k i (h (by rw [hp]; nofun)))

theorem endSweep_limits {s : State} (h : s.RingLimits) (c : EndCause) : (s.endSweep c).RingLimits := by
  by_cases hs : s.storing = true
  · have slots : (ringView (s.endSweep c)).SlotLimits := by
      unfold State.endSweep
      rw [if_pos hs]
      refine dropProvisional_slotLimits ((discardFrames_onlyFrees _).slotLimits ?_)
      rw [ringView_enterState]
      exact { ((ringLimits_iff s).mp h).1 with }
    have state : (ringView (s.endSweep c)).state = .finishing := endSweep_state hs c
    have keys := endSweep_keys s c
    have provisional : (s.endSweep c).swc.cal.provisional = none := by
      unfold State.endSweep
      rw [if_pos hs]
      refine dropProvisional_none (fun k => ?_)
      rw [discardFrames_swc, enterState_swc] at *
      exact h.calibration (h.reference k)
    refine (ringLimits_iff _).mpr ⟨slots, .of_working ?_ ?_ provisional (fun k => ?_) (fun _ => .inl state)⟩
    · rw [state]; decide
    · rw [state]; decide
    · obtain ⟨op, ho, hst⟩ := ringView_op_eq_some.mp k
      rw [(endSweep_frame s c).tku (by decide)] at ho
      exact List.map_eq_nil_iff.mpr (keys.trans (h.timeout op ho hst))
  · rw [endSweep_of_not_storing (Bool.not_eq_true _ ▸ hs)]; exact h

/-! ### The end of a tracked frame (01 R12, 02 R23) -/

/-- 01 R12: every LAST slot but one becomes FREE. -/
def freeOtherLast (s : State) (i : Fin 8) : State := s.freeSlots ((s.slotsIn .last).filter (· ≠ i))

theorem slotState_freeOtherLast (s : State) (i j : Fin 8) :
    (freeOtherLast s i).slotState j = if s.slotState j = .last ∧ j ≠ i then .free else s.slotState j := by
  have mem : j ∈ (s.slotsIn .last).filter (· ≠ i) ↔ s.slotState j = .last ∧ j ≠ i := by
    rw [List.mem_filter, mem_slotsIn]; simp [State.slotState]
  refine (congrFun (congrArg RingView.slots (ringView_freeSlots s _)) j).trans ?_
  simp only [mem]

/-- 01 R12: what the end of a tracked frame does to the view. -/
theorem ringView_closeFrame (s : State) (op : TrackOp) :
    ringView (s.closeFrame op)
      = { (ringView (freeOtherLast s op.slot)).set op.slot
            (if s.heldAsKey op.slot = true then .key else .last) with op := none } := by
  unfold State.closeFrame
  split
  · exact congrArg (fun v : RingView => { v with op := none }) (ringView_setSlotState _ _ _)
  · exact congrArg (fun v : RingView => { v with op := none }) (ringView_setSlotState _ _ _)

theorem closeFrame_limits {s : State} {op : TrackOp} (h : s.RingLimits)
    (hop : s.tku.op.map TrackOp.slot = some op.slot) : (s.closeFrame op).RingLimits := by
  have frees : OnlyFrees s (freeOtherLast s op.slot) := freeSlots_onlyFrees s _
  obtain ⟨hs, hk⟩ := (ringLimits_iff _).mp (frees.limits h)
  have tracked : (ringView (freeOtherLast s op.slot)).op.map Prod.fst = some op.slot := by
    rw [frees.1]
    exact (Option.map_map ..).trans hop
  rw [ringLimits_iff, ringView_closeFrame]
  refine ⟨hs.move rfl ?_ (fun _ _ _ => rfl) (fun j ne hj => ?_) rfl,
    { hk with timeout := nofun, taking := nofun, rest := fun k => ?_ }⟩
  · split
    · next held =>
      rw [heldAsKey_eq_held] at held
      show RingView.held _ _ = true
      rw [frees.1]; exact held
    · intro j hj
      by_contra ne
      have : (freeOtherLast s op.slot).slotState j = .last := hj
      rw [slotState_freeOtherLast] at this
      split at this
      · cases this
      · next k => exact k ⟨this, ne⟩
  · exact absurd (Option.some.inj ((hs.tracking j hj).symm.trans tracked)) ne
  · rw [(hk.rest k).2.1] at tracked; cases tracked

/-- The operation's stage changes: what the new stage asks of the session. -/
theorem stage_limits {s : State} {st : TrackStage} {t : State} (h : s.RingLimits)
    (e : ringView t = { ringView s with op := (ringView s).op.map (fun e => (e.1, st)) })
    (timeout : st = .calTimeoutDue → s.swc.keys = []) (taking : Takes st → ¬ Calibrates s.swc.state) :
    t.RingLimits := by
  rw [ringLimits_iff] at *
  obtain ⟨hs, hk⟩ := h
  have slot : ((ringView s).op.map (fun e => (e.1, st))).map Prod.fst = (ringView s).op.map Prod.fst := by
    rw [Option.map_map]; rfl
  have stage {x : TrackStage} (k : ((ringView s).op.map (fun e => (e.1, st))).map Prod.snd = some x) : st = x := by
    cases ho : (ringView s).op <;> rw [ho] at k
    · cases k
    · exact Option.some.inj k
  rw [e]
  refine ⟨{ hs with tracking := fun j hj => slot.trans (hs.tracking j hj) }, { hk with
    timeout := fun k => List.map_eq_nil_iff.mpr (timeout (stage k))
    taking := fun x k hx => taking (stage k ▸ hx)
    rest := fun k => ?_ }⟩
  obtain ⟨free, op, keys⟩ := hk.rest k
  exact ⟨free, by rw [op]; rfl, keys⟩

/-- A stage that asks nothing of the session. -/
def PlainStage : TrackStage → Prop
  | .calTimeoutDue | .keyWaiting _ | .closureDue _ _ => False
  | _ => True

theorem PlainStage.not_timeout {st : TrackStage} (h : PlainStage st) : st ≠ .calTimeoutDue := by
  rintro rfl; exact h

theorem PlainStage.not_takes {st : TrackStage} (h : PlainStage st) : ¬ Takes st := by
  rintro (⟨_, rfl⟩ | ⟨_, _, rfl⟩) <;> exact h

theorem setStage_limits {s : State} (h : s.RingLimits) {st : TrackStage} (k : PlainStage st) :
    (s.setStage st).RingLimits :=
  stage_limits h (ringView_setStage s st) (fun e => absurd e k.not_timeout) (fun e => absurd e k.not_takes)

/-- The tracking operation in hand is replaced by one of the same slot. -/
theorem putOp_limits {s : State} (h : s.RingLimits) {op op' : TrackOp} (x : Tku) (ho : s.tku.op = some op)
    (hx : x.op = some op') (slot : op'.slot = op.slot)
    (stage : op'.stage = op.stage ∨ PlainStage op'.stage) : ({ s with tku := x } : State).RingLimits := by
  have view : ringView { s with tku := x } = { ringView s with op := some (op.slot, op'.stage) } := by
    unfold ringView; rw [hx]; simp [opView, slot]; rfl
  have before : (ringView s).op = some (op.slot, op.stage) := by unfold ringView; rw [ho]; rfl
  rcases stage with e | k
  · refine limits_of_view h ?_
    rw [view, e, ← before]
  · refine stage_limits h (st := op'.stage) ?_ (fun e => absurd e k.not_timeout) (fun e => absurd e k.not_takes)
    rw [view, before]; rfl

theorem finishFrame_limits {s : State} (h : s.RingLimits) : s.finishFrame.RingLimits := by
  cases ho : s.tku.op with
  | none => unfold State.finishFrame; rw [ho]; exact h
  | some op =>
    rcases finishFrame_cases ho with ⟨_, e⟩ | ⟨_, e⟩ <;> rw [e]
    · exact closeFrame_limits h (by rw [ho]; rfl)
    · exact putOp_limits h _ ho rfl rfl (.inr trivial)

/-! ### Step 5 (04 R66) -/

theorem windowStep_limits {s : State} (h : s.RingLimits) (op : TrackOp) (r : FrameResult) :
    (s.windowStep op r).RingLimits := by
  unfold State.windowStep
  dsimp only
  split
  · split
    · next k =>
      have sweeping : s.swc.state = .sweeping := k.1
      have provisional := provisional_none h (by rw [sweeping]; decide)
      refine finishFrame_limits (state_limits (s := { s with cvm.closureRun := 0 }) (limits_of_view h rfl)
        (by decide) (by decide) provisional (fun e => ?_))
      have := h.waiting e
      rw [sweeping] at this
      rcases this with e | e <;> cases e
    · split
      · refine finishFrame_limits (limits_of_view (endSweep_limits h .closureMissed) ?_)
        rw [ringView_notify]; rfl
      · exact finishFrame_limits h
  · exact finishFrame_limits h

theorem stallStep_limits {s : State} (h : s.RingLimits) (op : TrackOp) (r : FrameResult) :
    (s.stallStep op r).RingLimits := by
  have counted (n : Nat) (m : Option Int) : ({ s with swc.stallCount := n, swc.highWater := m } : State).RingLimits :=
    limits_of_view h rfl
  unfold State.stallStep
  dsimp only
  split
  · exact windowStep_limits (counted _ _) _ _
  · split
    · exact setStage_limits (counted _ _) trivial
    · exact windowStep_limits (counted _ _) _ _

theorem paceStep_limits {s : State} (h : s.RingLimits) (op : TrackOp) (r : FrameResult) :
    (s.paceStep op r).RingLimits := by
  have paced (x : Pace) : ({ s with swc.pace := x } : State).RingLimits := limits_of_view h rfl
  unfold State.paceStep
  dsimp only
  split
  · exact stallStep_limits (paced _) _ _
  · split
    · exact setStage_limits h trivial
    · exact stallStep_limits (paced _) _ _

/-! ### Keys (04 R71, R72, R77) -/

/-- A key may join the table: the session has begun and does not calibrate, no calibration timeout is due, and a KEY slot is left for it. -/
structure KeyMayJoin (s : State) : Prop where
  cal : ¬ Calibrates s.swc.state
  rest : ¬ Rests s.swc.state
  timeout : ∀ op, s.tku.op = some op → op.stage ≠ .calTimeoutDue
  room : s.pinnedSlots.length < 3

theorem keyJoins_limits {s t : State} (h : s.RingLimits) (m : KeyMayJoin s) {i : Fin 8}
    (e : ringView t = { ringView s with keys := (ringView s).keys ++ [some i] }) : t.RingLimits := by
  rw [ringLimits_iff] at *
  obtain ⟨hs, hw⟩ := h
  rw [e]
  refine ⟨hs.addKey (.inl (pinnedSlots_eq_pinned s ▸ m.room)), { hw with
    calibration := fun e => absurd e m.cal
    timeout := fun e => ?_
    rest := fun e => absurd e m.rest }⟩
  obtain ⟨op, ho, hst⟩ := ringView_op_eq_some.mp e
  exact absurd hst (m.timeout op ho)

theorem recordKey_limits {s : State} (h : s.RingLimits) (m : KeyMayJoin s) {k : KeyRecord} {i : Fin 8}
    (hk : k.slot = some i) : (s.recordKey k).RingLimits :=
  keyJoins_limits h m (by rw [ringView_recordKey, hk])

theorem keyResources_iff (s : State) :
    s.keyResources = true ↔ s.smu.queue.length < 2 ∧ s.pinnedSlots.length < 3 := by
  unfold State.keyResources; exact decide_eq_true_iff

theorem takeTracked_limits {s : State} (h : s.RingLimits) (m : KeyMayJoin s) (op : TrackOp) (r : FrameResult)
    (kind : KeyKind) : (s.takeTracked op r kind).RingLimits := by
  have recorded := recordKey_limits h m (k := s.keyRecordOf op.slot op.position r kind) rfl
  unfold State.takeTracked
  dsimp only
  split
  · exact finishFrame_limits (endSweep_limits (s := { s.recordKey _ with swc.closurePending := false })
      (limits_of_view recorded rfl) _)
  · split
    · have begun : ((((s.recordKey (s.keyRecordOf op.slot op.position r kind)).askSelection .leading op.slot).rebase
          r).applyPending).RingLimits := by
        refine limits_of_view recorded ?_
        rw [ringView_applyPending, ringView_rebase, ringView_askSelection]
      split
      · exact setStage_limits begun trivial
      · exact paceStep_limits begun _ _
    · exact finishFrame_limits recorded

theorem takeOrWait_limits {s : State} (h : s.RingLimits) (op : TrackOp) (r : FrameResult) (kind : KeyKind)
    (cal : ¬ Calibrates s.swc.state) (rest : ¬ Rests s.swc.state)
    (timeout : ∀ op, s.tku.op = some op → op.stage ≠ .calTimeoutDue) : (s.takeOrWait op r kind).RingLimits := by
  unfold State.takeOrWait
  split
  · next k => exact takeTracked_limits h ⟨cal, rest, timeout, ((keyResources_iff s).mp k).2⟩ op r kind
  · exact stage_limits h (ringView_setStage s _) (fun e => (nomatch e)) (fun _ => cal)

theorem judgeKey_limits {s : State} (h : s.RingLimits) (op : TrackOp) (r : FrameResult)
    (cal : ¬ Calibrates s.swc.state) (rest : ¬ Rests s.swc.state)
    (timeout : ∀ op, s.tku.op = some op → op.stage ≠ .calTimeoutDue) : (s.judgeKey op r).RingLimits := by
  have ended (c : EndCause) : (s.endSweep c).finishFrame.RingLimits := finishFrame_limits (endSweep_limits h c)
  unfold State.judgeKey
  dsimp only
  split
  · exact ended _
  · split
    · exact ended _
    · split
      · exact paceStep_limits h _ _
      · split
        · exact ended _
        · exact takeOrWait_limits h _ _ _ cal rest timeout

theorem keyDecision_limits {s : State} (h : s.RingLimits) (op : TrackOp) (r : FrameResult)
    (cal : ¬ Calibrates s.swc.state) (rest : ¬ Rests s.swc.state)
    (timeout : ∀ op, s.tku.op = some op → op.stage ≠ .calTimeoutDue) : (s.keyDecision op r).RingLimits := by
  have run (n : Nat) : (s.setClosureRun n).RingLimits := limits_of_view h rfl
  have judged (n : Nat) : ((s.setClosureRun n).judgeKey op r).RingLimits :=
    judgeKey_limits (run n) op r cal rest timeout
  unfold State.keyDecision
  split
  · split
    · split
      · split
        · exact stage_limits h (ringView_setStage s _) (fun e => (nomatch e)) (fun _ => cal)
        · exact judged _
      · exact judged _
    · exact judged _
  · exact judgeKey_limits h op r cal rest timeout

end Sys2Proof.Proofs
end

section
/-! The limits of the frame ring (01 R10), continued: calibration, tracking, the tail key, the releases of 07 R134, frame ingest and START. -/
namespace Sys2Proof.Proofs
open Sys2Proof.Machine

/-! ### Facts that the limits give -/

theorem op_none_of_rests {s : State} (h : s.RingLimits) (k : Rests s.swc.state) : s.tku.op = none := (h.rest k).2.1

/-- 05 R80: a frame in tracking, or a slot in use, belongs to a session that has begun. -/
theorem not_rests_of_op {s : State} (h : s.RingLimits) {op : TrackOp} (ho : s.tku.op = some op) :
    ¬ Rests s.swc.state := fun k => by rw [op_none_of_rests h k] at ho; cases ho

theorem not_rests_of_slot {s : State} (h : s.RingLimits) {i : Fin 8} (hi : s.slotState i ≠ .free) :
    ¬ Rests s.swc.state := fun k => hi ((h.rest k).1 i)

theorem not_waiting_of_storing {s : State} (h : s.RingLimits) (k : s.storing = true) : s.swc.tail ≠ .waiting := by
  intro e
  unfold State.storing at k
  rcases h.waiting e with e | e <;> rw [e] at k <;> cases k

theorem storing_of_calibrates {s : State} (k : Calibrates s.swc.state) : s.storing = true := by
  unfold State.storing
  rcases k with e | e <;> rw [e] <;> rfl

/-- Without a key only the provisional reference is held. -/
theorem held_of_no_keys {s : State} (keys : s.swc.keys = []) {j : Fin 8} (h : s.heldAsKey j = true) :
    s.swc.cal.provisional = some j := by
  simpa [State.heldAsKey, keys] using h

theorem pinnedSlots_of_no_keys {s : State} (h : s.RingLimits) (keys : s.swc.keys = []) :
    s.pinnedSlots.length ≤ 1 := by
  have sub : s.pinnedSlots ⊆ s.swc.cal.provisional.toList := fun j hj => by
    have pinned : s.slotState j = .key ∨ s.heldAsKey j = true := by
      simpa [State.pinnedSlots, State.slotPinned] using hj
    rw [held_of_no_keys keys (pinned.elim (h.key j) id)]
    simp
  have nodup : s.pinnedSlots.Nodup := (List.nodup_finRange 8).filter _
  refine (List.subperm_of_subset nodup sub).length_le.trans ?_
  cases s.swc.cal.provisional <;> simp

/-! ### Calibration (05 R90 to R92, R94) -/

/-- 05 R90, R92: a frame becomes the provisional reference, where no slot is KEY. -/
theorem reference_limits {s t : State} (h : s.RingLimits) {k : Fin 8} {a : SessionState}
    (e : ringView t = { ringView s with provisional := some k, state := a }) (cal : Calibrates a)
    (keys : s.swc.keys = []) (noKey : ∀ j, s.slotState j ≠ .key)
    (taking : ∀ op, s.tku.op = some op → ¬ Takes op.stage) (waiting : s.swc.tail ≠ .waiting) : t.RingLimits := by
  rw [ringLimits_iff] at *
  obtain ⟨hs, hk⟩ := h
  have noKeys : (ringView s).keys = [] := List.map_eq_nil_iff.mpr keys
  rw [e]
  refine ⟨{ hs with
      pinned := ?_
      key := fun j hj => absurd hj (noKey j) },
    { reference := fun _ => cal, calibration := fun _ => noKeys, timeout := fun _ => noKeys, taking := fun st hst ht => ?_
      waiting := fun e => absurd e waiting, rest := fun r => ?_ }⟩
  · refine (List.subperm_of_subset ((List.nodup_finRange 8).filter _) (l₂ := [k]) (fun j hj => ?_)).length_le.trans
      (by decide : 1 ≤ 3)
    rcases (mem_pinned _ j).mp hj with e | e
    · exact absurd e (noKey j)
    · rw [held_iff] at e
      simpa [noKeys, eq_comm] using e
  · obtain ⟨op, ho, rfl⟩ := ringView_op_eq_some.mp hst
    exact absurd ht (taking op ho)
  · rcases cal with e | e <;> rcases r with r | r <;> rw [e] at r <;> cases r

theorem takeProvisional_limits {s : State} (h : s.RingLimits) (op : TrackOp) (r : FrameResult)
    (cal : Calibrates s.swc.state) (hp : s.swc.cal.provisional = none) : (s.takeProvisional op r).RingLimits := by
  have keys := h.calibration cal
  refine reference_limits h (a := s.swc.state) (ringView_takeProvisional s op r) cal keys (fun j hj => ?_)
    (fun o ho ht => ?_) (not_waiting_of_storing h (storing_of_calibrates cal))
  · have := held_of_no_keys keys (h.key j hj)
    rw [hp] at this; cases this
  · exact not_or.mpr (h.taking o ho ht) cal

theorem recalibrate_limits {s : State} (h : s.RingLimits) {op : TrackOp} (r : FrameResult) (hs : s.storing = true)
    (ho : s.tku.op = some op) (st : op.stage = .calTimeoutDue) : (s.recalibrate op r).RingLimits := by
  have keys := h.timeout op ho st
  have taking : ∀ o, s.tku.op = some o → ¬ Takes o.stage := fun o h' => by
    cases ho.symm.trans h'
    rw [st]; rintro (⟨_, e⟩ | ⟨_, _, e⟩) <;> cases e
  have view (u : State) : ringView ((u.takeProvisional op r).enterState .recalibrating)
      = { ringView u with provisional := some op.slot, state := .recalibrating } := by
    rw [ringView_enterState, ringView_takeProvisional]
  have waiting := not_waiting_of_storing h hs
  unfold State.recalibrate
  split
  · next p hp =>
    refine reference_limits ((freeSlot_onlyFrees s p).limits h) (view _) (.inr rfl) keys (fun j hj => ?_) taking waiting
    rw [slotState_freeSlot] at hj
    split at hj
    · cases hj
    · next ne => exact ne (Option.some.inj (hp.symm.trans (held_of_no_keys keys (h.key j hj)))).symm
  · next hp =>
    refine reference_limits h (view _) (.inr rfl) keys (fun j hj => ?_) taking waiting
    rw [held_of_no_keys keys (h.key j hj)] at hp; cases hp

/-- 05 R91: the provisional reference becomes key 0 and the sweep begins. -/
theorem ringView_decideDirection (s : State) (r : FrameResult) (p : Fin 8) :
    ringView (s.decideDirection r p)
      = { ringView s with keys := (ringView s).keys ++ [some p], provisional := none, state := .sweeping } := by
  unfold State.decideDirection State.beginSweep
  dsimp only
  rw [ringView_enterState]
  exact congrArg (fun v : RingView => { v with provisional := none, state := .sweeping }) (ringView_takeKeyZero _ _ _ _)

theorem decideDirection_limits {s : State} (h : s.RingLimits) {op : TrackOp} (r : FrameResult) {p : Fin 8}
    (hs : s.storing = true) (ho : s.tku.op = some op) (st : op.stage = .calDecisionDue)
    (hp : s.swc.cal.provisional = some p) : (s.decideDirection r p).RingLimits := by
  have keys : (ringView s).keys = [] := List.map_eq_nil_iff.mpr (h.calibration (h.reference (by rw [hp]; nofun)))
  have waiting := not_waiting_of_storing h hs
  rw [ringLimits_iff] at *
  obtain ⟨hl, hk⟩ := h
  have hp : (ringView s).provisional = some p := hp
  rw [ringView_decideDirection]
  refine ⟨hl.fewer (fun _ => .inl rfl) rfl rfl (fun j hj => ?_) (fun j hj => ?_),
    .of_working (show ¬ Calibrates .sweeping by decide) (show ¬ Rests .sweeping by decide) rfl (fun e => ?_) (fun e => absurd e waiting)⟩
  · rw [held_iff] at *
    simpa [keys, hp, eq_comm] using hj
  · have := (held_iff _ j).mp (hl.key j hj)
    rw [held_iff]
    simpa [keys, hp, eq_comm] using this
  · obtain ⟨o, h', e⟩ := ringView_op_eq_some.mp e
    cases ho.symm.trans h'
    rw [st] at e; cases e

theorem takeFirstFrame_limits {s : State} (h : s.RingLimits) (op : TrackOp) (r : FrameResult)
    (sweeping : s.swc.state = .sweeping) (keys : s.swc.keys = [])
    (timeout : ∀ op, s.tku.op = some op → op.stage ≠ .calTimeoutDue) : (s.takeFirstFrame op r).RingLimits := by
  have joins : KeyMayJoin s := ⟨by rw [sweeping]; decide, by rw [sweeping]; decide, timeout,
    (pinnedSlots_of_no_keys h keys).trans_lt (by decide)⟩
  unfold State.takeFirstFrame
  exact finishFrame_limits (limits_of_view (keyJoins_limits h joins (ringView_takeKeyZero s op.slot r.m r.lock)) rfl)

theorem judgeCalibration_limits {s : State} (h : s.RingLimits) (r : FrameResult) (cal : Calibrates s.swc.state) :
    (s.judgeCalibration r).RingLimits := by
  have counted (n : Nat) (run : Option Bool) : ({ s with swc.cal.count := n, swc.cal.run := run } : State).RingLimits :=
    limits_of_view h rfl
  have keys := h.calibration cal
  unfold State.judgeCalibration
  dsimp only
  split
  · exact setStage_limits (counted _ _) trivial
  · split
    · exact stage_limits (counted _ _) (ringView_setStage _ _) (fun _ => keys)
        (fun k => by rcases k with ⟨_, k⟩ | ⟨_, _, k⟩ <;> cases k)
    · split
      · exact setStage_limits (counted _ _) trivial
      · exact finishFrame_limits (counted _ _)

theorem calibrate_limits {s : State} (h : s.RingLimits) (op : TrackOp) (r : FrameResult)
    (cal : Calibrates s.swc.state) : (s.calibrate op r).RingLimits := by
  have marked : ({ s with swc.gyroSinceKey := s.swc.gyroSinceKey || r.gyroMark } : State).RingLimits :=
    limits_of_view h rfl
  unfold State.calibrate
  dsimp only
  split
  · next hp => exact finishFrame_limits (takeProvisional_limits marked op r cal hp)
  · exact judgeCalibration_limits marked r cal

/-! ### SWC's decision on a frame (04 R66) -/

theorem countFrame_limits {s : State} (h : s.RingLimits) (r : FrameResult) : (s.countFrame r).RingLimits :=
  limits_of_view h rfl

theorem decideFrame_limits {s : State} (h : s.RingLimits) (r : FrameResult)
    (timeout : ∀ op, s.tku.op = some op → op.stage ≠ .calTimeoutDue) : (s.decideFrame r).RingLimits := by
  cases ho : s.tku.op with
  | none => unfold State.decideFrame; rw [ho]; exact h
  | some op =>
    have placed : ({ s with tku.op := some { op with position := s.positionOf r } } : State).RingLimits :=
      putOp_limits h _ ho rfl rfl (.inl rfl)
    have notDue : ∀ o, some { op with position := s.positionOf r } = some o → o.stage ≠ .calTimeoutDue := by
      rintro _ ⟨⟩; exact timeout op ho
    have counted := countFrame_limits placed r
    unfold State.decideFrame
    rw [ho]
    dsimp only
    split
    · next e => exact calibrate_limits placed _ _ (.inl e)
    · next e => exact calibrate_limits placed _ _ (.inr e)
    · next e =>
      have cal : ¬ Calibrates s.swc.state := by rw [e]; decide
      have rest : ¬ Rests s.swc.state := by rw [e]; decide
      split
      · next k => exact takeFirstFrame_limits counted _ r e (List.isEmpty_iff.mp k) notDue
      · exact keyDecision_limits counted _ r cal rest notDue
    · next e =>
      have cal : ¬ Calibrates s.swc.state := by rw [e]; decide
      have rest : ¬ Rests s.swc.state := by rw [e]; decide
      exact keyDecision_limits counted _ r cal rest notDue
    all_goals exact finishFrame_limits placed

/-! ### Tracking (03 R47) -/

theorem frameResult_limits {s : State} (h : s.RingLimits) {op o : TrackOp} (ho : s.tku.op = some o)
    (slot : op.slot = o.slot) : (s.frameResult op).RingLimits := by
  unfold State.frameResult
  refine decideFrame_limits (putOp_limits h _ ho rfl ?_ (.inr ?_)) _ (fun _ e => ?_)
  · exact slot
  · trivial
  · cases e; exact nofun

theorem lockStep_limits {s : State} (h : s.RingLimits) {op o : TrackOp} (ho : s.tku.op = some o)
    (slot : op.slot = o.slot) (stage : op.stage = o.stage) : (s.lockStep op).RingLimits := by
  have placed : ({ s with tku.op := some op } : State).RingLimits := putOp_limits h _ ho rfl slot (.inl stage)
  have locked (l : Lock) : (({ s with tku.op := some op } : State).setLock l).RingLimits := limits_of_view placed rfl
  have decided {t : State} (ht : t.RingLimits) (e : t.tku.op = some op) : (t.frameResult op).RingLimits :=
    frameResult_limits ht e rfl
  have noticed (l : Lock) (b : LockState) :
      (((({ s with tku.op := some op } : State).setLock l).notifyTrack op b).frameResult op).RingLimits :=
    decided (limits_of_view (locked l) (ringView_notify _ _)) (by unfold State.notifyTrack; rw [notify_eq]; rfl)
  unfold State.lockStep
  dsimp only
  split
  · split
    · split
      · exact setStage_limits (locked _) trivial
      · exact decided (locked _) rfl
    · split
      · exact setStage_limits (locked _) trivial
      · exact decided (locked _) rfl
    · exact decided placed rfl
    · exact noticed _ _
  · split
    · exact decided (locked _) rfl
    · exact decided (locked _) rfl
    · exact noticed _ _
    · split
      · exact setStage_limits (locked _) trivial
      · exact decided (locked _) rfl

theorem afterMisses_limits {s : State} (h : s.RingLimits) {op o : TrackOp} (ho : s.tku.op = some o)
    (slot : op.slot = o.slot) (stage : op.stage = o.stage) : (s.afterMisses op).RingLimits :=
  lockStep_limits (s := s.motionStep op) (limits_of_view h rfl) ho slot stage

/-- 03 R47 stages 1 to 3: the sets alone change, and the operation keeps its slot and its stage. -/
theorem formConsensus_keeps (s : State) (op : TrackOp) :
    (s.formConsensus op).1 = { s with tku := (s.formConsensus op).1.tku }
      ∧ (s.formConsensus op).1.tku.op = s.tku.op
      ∧ (s.formConsensus op).2.1.slot = op.slot ∧ (s.formConsensus op).2.1.stage = op.stage := by
  unfold State.formConsensus
  dsimp only
  split
  · split <;> exact ⟨rfl, rfl, rfl, rfl⟩
  · exact ⟨rfl, rfl, rfl, rfl⟩

/-- A change of TKU that keeps the operation. -/
theorem tku_limits {s t : State} (h : s.RingLimits) (f : SameOutside [.tku] s t) (op : t.tku.op = s.tku.op) :
    t.RingLimits := by
  refine limits_of_view h ?_
  have slots : t.slotState = s.slotState := by funext j; unfold State.slotState; rw [f.igu (by decide)]
  unfold ringView
  rw [slots, f.igu (by decide), f.swc (by decide), op]

theorem beginTracking_limits {s : State} (h : s.RingLimits) {i : Fin 8} (ho : s.tku.op = none)
    (hi : s.slotState i ≠ .free) : (s.beginTracking i).RingLimits := by
  have rest := not_rests_of_slot h hi
  have none : (ringView s).op = none := by unfold ringView; rw [ho]; rfl
  have view : ringView (s.beginTracking i) = { (ringView s).set i .tracking with op := some (i, .searching) } :=
    congrArg (fun v : RingView => { v with op := some (i, .searching) }) (ringView_setSlotState s i .tracking)
  rw [ringLimits_iff] at *
  obtain ⟨hs, hk⟩ := h
  rw [view]
  refine ⟨hs.move rfl rfl (fun _ _ _ => rfl) (fun j _ hj => ?_) rfl,
    { hk with timeout := fun e => (nomatch e), taking := fun st e k => ?_, rest := fun e => absurd e rest }⟩
  · have := hs.tracking j hj
    rw [none] at this; cases this
  · cases e; rcases k with ⟨_, e⟩ | ⟨_, _, e⟩ <;> cases e

/-! ### The tail key (04 R76, R77) -/

theorem moveToKey_limits {s : State} (h : s.RingLimits) {i : Fin 8} (held : s.heldAsKey i = true)
    (rest : ¬ Rests s.swc.state) : (s.moveToKey i).RingLimits := by
  have frees : OnlyFrees s (freeOtherLast s i) := freeSlots_onlyFrees s _
  obtain ⟨hs, hk⟩ := (ringLimits_iff _).mp (frees.limits h)
  have view : ringView (s.moveToKey i) = (ringView (freeOtherLast s i)).set i .key := ringView_setSlotState _ _ _
  rw [ringLimits_iff, view]
  refine ⟨hs.move rfl ?_ (fun _ _ _ => rfl) (fun _ _ _ => rfl) rfl, { hk with rest := fun e => ?_ }⟩
  · rw [heldAsKey_eq_held] at held
    show RingView.held _ _ = true
    rw [frees.1]; exact held
  · rw [frees.1] at e; exact absurd e rest

theorem takeTail_limits {s : State} (h : s.RingLimits) (m : KeyMayJoin s) (i : Fin 8) (r : FrameResult) :
    (s.takeTail i r).RingLimits := by
  have recorded := recordKey_limits h m (k := s.tailRecord i r) rfl
  have swc := (recordKey_effect s (s.tailRecord i r)).1
  refine tailMade_limits (moveToKey_limits recorded ?_ ?_)
  · unfold State.heldAsKey
    rw [swc, List.any_append]
    simp [State.tailRecord, State.keyRecordOf]
  · rw [swc]; exact m.rest

/-- The tail-key decision, in FINISHING with no frame in tracking. -/
theorem decideTail_limits {s : State} (h : s.RingLimits) (fin : s.swc.state = .finishing) (ho : s.tku.op = none) :
    s.decideTail.RingLimits := by
  have joins (room : s.pinnedSlots.length < 3) : KeyMayJoin s :=
    ⟨by rw [fin]; decide, by rw [fin]; decide, (fun op e => by rw [ho] at e; cases e), room⟩
  unfold State.decideTail
  split
  · split
    · split
      · next k => exact takeTail_limits h (joins ((keyResources_iff s).mp k).2) _ _
      · exact { h with waiting := fun _ => .inl fin }
    · exact dropLast_limits h
  · exact dropLast_limits h

/-! ### Key records (06 R118, 07 R134) -/

theorem ringView_updateKey (s : State) (k : Nat) (f : KeyRecord → KeyRecord) (hf : ∀ r, (f r).slot = r.slot) :
    ringView (s.updateKey k f) = ringView s := by
  have keys : (s.swc.keys.modify k f).map KeyRecord.slot = s.swc.keys.map KeyRecord.slot := by
    refine List.ext_getElem? (fun n => ?_)
    rw [List.getElem?_map, List.getElem?_map, List.getElem?_modify]
    cases s.swc.keys[n]? with
    | none => rfl
    | some r =>
      by_cases e : k = n
      · simp [e, hf]
      · simp [e]
  exact congrArg (fun l => { ringView s with keys := l }) keys

theorem writeJob_limits {s : State} (h : s.RingLimits) (failed : List Nat) (job : SeamJob) :
    (s.writeJob failed job).RingLimits := by
  refine limits_of_view h ?_
  cases job <;> refine (ringView_updateKey _ _ _ ?_).trans (ringView_updateKey _ _ _ ?_) <;> exact fun _ => rfl

/-- 04 R62: the slots of the keys of a table once a key is released. -/
def slotsReleased (l : List KeyRecord) (k : Nat) : List (Option (Fin 8)) :=
  (l.modify k (fun r => { r with state := .released, slot := none })).map KeyRecord.slot

theorem slotsReleased_getElem? (l : List KeyRecord) (k n : Nat) :
    (slotsReleased l k)[n]? = (l[n]?).map (fun r => if k = n then none else r.slot) := by
  unfold slotsReleased
  rw [List.getElem?_map, List.getElem?_modify]
  cases l[n]? with
  | none => rfl
  | some r => by_cases e : k = n <;> simp [e]

theorem mem_slotsReleased {l : List KeyRecord} {k : Nat} {j : Fin 8} (h : some j ∈ slotsReleased l k) :
    some j ∈ l.map KeyRecord.slot := by
  obtain ⟨n, hn⟩ := List.mem_iff_getElem?.mp h
  rw [slotsReleased_getElem?] at hn
  obtain ⟨r, hr, e⟩ := Option.map_eq_some_iff.mp hn
  split at e
  · cases e
  · exact List.mem_map.mpr ⟨r, List.mem_of_getElem? hr, e⟩

theorem mem_slotsReleased_or {l : List KeyRecord} {k : Nat} {j : Fin 8} (h : some j ∈ l.map KeyRecord.slot) :
    some j ∈ slotsReleased l k ∨ l[k]?.bind KeyRecord.slot = some j := by
  obtain ⟨n, hn⟩ := List.mem_iff_getElem?.mp h
  rw [List.getElem?_map] at hn
  obtain ⟨r, hr, e⟩ := Option.map_eq_some_iff.mp hn
  by_cases ne : k = n
  · right; rw [ne, hr]; exact e
  · left
    refine List.mem_iff_getElem?.mpr ⟨n, ?_⟩
    rw [slotsReleased_getElem?, hr, Option.map_some, if_neg ne, e]

theorem ringView_releaseKey (s : State) (k : Nat) : ringView (s.releaseKey k) = { ringView s with
    slots := fun j => if s.swc.keys[k]?.bind KeyRecord.slot = some j then .free else s.slotState j
    keys := slotsReleased s.swc.keys k } := by
  unfold State.releaseKey State.keyAt
  dsimp only
  split
  · next i e =>
    rw [e, ringView_freeSlot]
    simp only [RingView.set, Option.some.injEq, eq_comm (a := i)]
    rfl
  · next e => rw [e]; rfl

/-- 04 R62: the slot of a released key is FREE; the other KEY slots stay held. -/
theorem releaseKey_limits {s : State} (h : s.RingLimits) (k : Nat) : (s.releaseKey k).RingLimits := by
  have nil (e : (ringView s).keys = []) : slotsReleased s.swc.keys k = [] := by
    rw [slotsReleased, List.map_eq_nil_iff.mp e, List.modify_nil, List.map_nil]
  rw [ringLimits_iff] at *
  obtain ⟨hs, hk⟩ := h
  rw [ringView_releaseKey]
  refine ⟨hs.fewer (fun j => ?_) rfl rfl (fun j hj => ?_) (fun j hj => ?_), { hk with
    calibration := fun e => nil (hk.calibration e)
    timeout := fun e => nil (hk.timeout e)
    rest := fun e => ?_ }⟩
  · dsimp only
    split
    · exact .inr rfl
    · exact .inl rfl
  · exact (held_iff _ j).mpr (((held_iff _ j).mp hj).imp id mem_slotsReleased)
  · dsimp only at hj
    split at hj
    · cases hj
    · next ne =>
      refine (held_iff _ j).mpr (((held_iff _ j).mp (hs.key j hj)).imp id (fun e => ?_))
      exact (mem_slotsReleased_or e).resolve_right ne
  · obtain ⟨free, op, keys⟩ := hk.rest e
    refine ⟨fun j => ?_, op, nil keys⟩
    dsimp only
    split
    · rfl
    · exact free j

theorem commitKeys_limits {s : State} (h : s.RingLimits) (c : Commit) : (s.commitKeys c).RingLimits := by
  have committed : (s.updateKey c.key (fun r => { r with state := .committed })).RingLimits :=
    limits_of_view h (ringView_updateKey _ _ _ (fun _ => rfl))
  unfold State.commitKeys
  dsimp only
  split
  · split
    · exact committed
    · exact releaseKey_limits committed _
    · exact releaseKey_limits committed _
  · split
    · exact releaseKey_limits committed _
    · exact releaseKey_limits (releaseKey_limits committed _) _
    · exact releaseKey_limits (releaseKey_limits committed _) _

end Sys2Proof.Proofs
end

section
/-! The limits of the frame ring (01 R10) under the commands of frame ingest, under the ends and the beginnings of a session, and under an access to buffer memory. -/
namespace Sys2Proof.Proofs
open Sys2Proof.Machine

/-! ### Looking up a slot -/

theorem mem_slotsIn_iff (s : State) (st : SlotState) (i : Fin 8) : i ∈ s.slotsIn st ↔ s.slotState i = st :=
  mem_slotsIn s st i

theorem slotState_of_firstIn {s : State} {st : SlotState} {i : Fin 8} (h : s.firstIn st = some i) :
    s.slotState i = st :=
  (mem_slotsIn_iff s st i).mp (List.mem_of_head? h)

theorem slotState_ne_of_firstIn {s : State} {st : SlotState} (h : s.firstIn st = none) (j : Fin 8) :
    s.slotState j ≠ st := fun e => by
  have := (mem_slotsIn_iff s st j).mpr e
  rw [List.head?_eq_none_iff.mp h] at this
  cases this

/-- 01 R11: the oldest slot in a state is in that state. -/
theorem slotState_of_oldestIn {s : State} {st : SlotState} {i : Fin 8} (h : s.oldestIn st = some i) :
    s.slotState i = st := by
  refine List.foldlRecOn (motive := fun best => ∀ k, best = some k → s.slotState k = st) (s.slotsIn st) _
    (fun _ e => ?_) (fun best hb j hj k hk => ?_) i h
  · cases e
  have here := (mem_slotsIn_iff s st j).mp hj
  split at hk
  · cases hk; exact here
  · split at hk
    · cases hk; exact here
    · cases hk; exact hb _ rfl

/-! ### Frame ingest (01) -/

theorem countDropped_limits {s : State} (h : s.RingLimits) : s.countDropped.RingLimits := limits_of_view h rfl

theorem countGeometry_limits {s : State} (h : s.RingLimits) : s.countGeometry.RingLimits := by
  unfold State.countGeometry
  split
  · exact limits_of_view h rfl
  · exact h

/-- 01 R7, R10: with the FILLING frame ended there is none. -/
theorem abortFilling_limits {s : State} (h : s.RingLimits) :
    s.abortFilling.RingLimits ∧ ∀ j, s.abortFilling.slotState j ≠ .filling := by
  unfold State.abortFilling
  split
  · next i hi =>
    refine ⟨countDropped_limits ((endUnaccepted_onlyFrees s i).limits h), fun j hj => ?_⟩
    have slot : (s.endUnaccepted i).countDropped.slotState j = if j = i then .free else s.slotState j :=
      slotState_freeSlot (s.withdrawLines i) i j
    rw [slot] at hj
    split at hj
    · cases hj
    · next ne => exact ne (h.filling j i hj (slotState_of_firstIn hi))
  · next hi => exact ⟨h, slotState_ne_of_firstIn hi⟩

theorem startFrame_limits {s : State} (h : s.RingLimits) (hs : s.storing = true)
    (none : ∀ j, s.slotState j ≠ .filling) (i : Fin 8) (c : BitVec 8) (e : Nat) :
    (s.startFrame i c e).RingLimits := by
  have view : ringView (s.startFrame i c e) = (ringView s).set i .filling := ringView_putSlot s i .filling _
  rw [ringLimits_iff] at *
  obtain ⟨hl, hk⟩ := h
  rw [view]
  refine ⟨hl.move rfl none (fun _ _ _ => rfl) (fun _ _ _ => rfl) rfl, { hk with rest := fun k => ?_ }⟩
  unfold State.storing at hs
  have k : Rests s.swc.state := k
  rcases k with k | k <;> rw [k] at hs <;> cases hs

theorem frameStart_limits {s : State} (h : s.RingLimits) (none : ∀ j, s.slotState j ≠ .filling) (l : List Beat) :
    (s.frameStart l).RingLimits := by
  unfold State.frameStart
  split
  · exact h
  · next hs =>
    split
    · split
      · exact h
      · split
        · exact startFrame_limits h (by simpa using hs) none _ _ _
        · exact countDropped_limits h
    · exact countGeometry_limits h

/-- 01 R11: with no pass running the pass of a slot begins. -/
theorem startPrepare_limits {s : State} (h : s.RingLimits) {i : Fin 8} (hp : s.igu.prep = none)
    (hi : s.slotState i ≠ .free) : (s.startPrepare i).RingLimits := by
  have rest := not_rests_of_slot h hi
  have idle : (ringView s).prep = none := by unfold ringView; rw [hp]; rfl
  have view : ringView (s.startPrepare i) = { (ringView s).set i .preparing with prep := some i } :=
    congrArg (fun v : RingView => { v with prep := some i }) (ringView_setSlotState s i .preparing)
  rw [ringLimits_iff] at *
  obtain ⟨hl, hk⟩ := h
  rw [view]
  refine ⟨hl.move rfl rfl (fun j _ hj => ?_) (fun _ _ _ => rfl) rfl, { hk with rest := fun k => absurd k rest }⟩
  have := hl.preparing j hj
  rw [idle] at this; cases this

/-- A slot moves to a state that the limits do not speak of. -/
theorem moveOn_limits {s t : State} (h : s.RingLimits) {i : Fin 8} {st : SlotState}
    (e : ringView t = (ringView s).set i st) (plain : st = .filledWait ∨ st = .queued)
    (rest : ¬ Rests s.swc.state) : t.RingLimits := by
  rw [ringLimits_iff] at *
  obtain ⟨hl, hk⟩ := h
  rw [e]
  refine ⟨hl.move rfl ?_ (fun _ _ _ => rfl) (fun _ _ _ => rfl) rfl, { hk with rest := fun k => absurd k rest }⟩
  rcases plain with rfl | rfl <;> trivial

theorem acceptFrame_limits {s : State} (h : s.RingLimits) {i : Fin 8} (hi : s.slotState i ≠ .free) (r : FrameRecord) :
    (s.acceptFrame i r).RingLimits := by
  have rest := not_rests_of_slot h hi
  have waits (x : Igu) (q : FrameRecord) (hx : x.slots = s.igu.slots.set i { state := .filledWait, record := some q })
      (hp : x.prep = s.igu.prep) : ({ s with igu := x } : State).RingLimits := by
    refine moveOn_limits h (i := i) ?_ (.inl rfl) rest
    rw [← ringView_putSlot s i .filledWait q]
    unfold ringView State.slotState State.putSlot
    rw [hx, hp]
  unfold State.acceptFrame State.putSlot
  dsimp only
  split
  · next hp =>
    refine startPrepare_limits ?_ (Option.isNone_iff_eq_none.mp hp) ?_
    · exact waits _ _ rfl rfl
    · unfold State.slotState
      rw [slots_get_set, if_pos rfl]
      nofun
  · exact waits _ _ rfl rfl

/-- 01 R11, R13: the pass of a slot is over, and the slot QUEUED or FREE. -/
theorem passOver_limits {s t : State} (h : s.RingLimits) {p : Prep} {st : SlotState} (hp : s.igu.prep = some p)
    (e : ringView t = { (ringView s).set p.slot st with prep := none })
    (plain : st = .free ∨ st = .queued ∧ ¬ Rests s.swc.state) : t.RingLimits := by
  have busy : (ringView s).prep = some p.slot := by unfold ringView; rw [hp]; rfl
  rw [ringLimits_iff] at *
  obtain ⟨hl, hk⟩ := h
  rw [e]
  refine ⟨hl.move rfl ?_ (fun j ne hj => ?_) (fun _ _ _ => rfl) rfl, { hk with rest := fun k => ?_ }⟩
  · rcases plain with rfl | ⟨rfl, _⟩ <;> trivial
  · have := hl.preparing j hj
    rw [busy] at this
    exact absurd (Option.some.inj this).symm ne
  · rcases plain with rfl | ⟨_, rest⟩
    · refine ⟨fun j => ?_, (hk.rest k).2⟩
      show (if j = p.slot then SlotState.free else (ringView s).slots j) = .free
      rw [(hk.rest k).1 j, ite_self]
    · exact absurd k rest

/-! ### The beginning and the end of a session (05 R85, R88, R102, R103) -/

/-- With every slot FREE, no frame in tracking, no key, no reference and no tail key. -/
theorem limits_of_empty {v : RingView} (slots : ∀ j, v.slots j = .free) (op : v.op = none) (keys : v.keys = [])
    (provisional : v.provisional = none) (tail : v.tail ≠ .waiting) : v.Limits := by
  have held (j : Fin 8) : v.held j = false := by simp [RingView.held, keys, provisional]
  have unlike {st : SlotState} (hst : st ≠ .free) (j : Fin 8) (hj : v.slots j = st) : False :=
    hst (hj.symm.trans (slots j))
  refine ⟨⟨fun i _ hi => (unlike (by decide) i hi).elim, fun i hi => (unlike (by decide) i hi).elim,
    fun i hi => (unlike (by decide) i hi).elim, fun i _ hi => (unlike (by decide) i hi).elim, ?_,
    fun i hi => (unlike (by decide) i hi).elim⟩, ⟨fun k => absurd provisional k, fun _ => keys, fun _ => keys, ?_, ?_,
    fun _ => ⟨slots, op, keys⟩⟩⟩
  · have : v.pinned = [] := by
      refine List.eq_nil_iff_forall_not_mem.mpr (fun j hj => ?_)
      rw [mem_pinned, slots j, held j] at hj
      rcases hj with e | e <;> cases e
    rw [this]; decide
  · intro st e; rw [op] at e; cases e
  · exact fun e => absurd e tail

theorem slotState_reset (j : Fin 8) : (Igu.reset.slots[j]).state = .free := by
  revert j; decide

theorem start_limits {s : State} (h : s.RingLimits) (armed : s.swc.state = .armed) : s.start.RingLimits := by
  obtain ⟨slots, op, keys⟩ := h.rest (.inr armed)
  unfold State.start
  rw [ringLimits_iff, ringView_enterState]
  have empty := limits_of_empty (v := { ringView s with provisional := none, tail := .notMade, state := s.cfg.direction.firstState })
    slots (by unfold ringView; rw [op]; rfl) (List.map_eq_nil_iff.mpr keys) rfl nofun
  exact empty

theorem release_limits (s : State) : s.release.RingLimits :=
  (ringLimits_iff _).mpr (limits_of_empty slotState_reset rfl rfl rfl nofun)

theorem abandon_limits (s : State) : s.abandon.RingLimits :=
  (ringLimits_iff _).mpr (limits_of_empty slotState_reset rfl rfl rfl nofun)

theorem reset_limits : State.reset.RingLimits :=
  (ringLimits_iff _).mpr (limits_of_empty slotState_reset rfl rfl rfl nofun)

/-- 05 R85: an accepted ARM, in a session that rests. -/
theorem armed_limits {s : State} (h : s.RingLimits) (rest : Rests s.swc.state) (c : SessionConfig) :
    (s.armed c).RingLimits := by
  obtain ⟨slots, op, keys⟩ := h.rest rest
  have provisional := provisional_none h (by rcases rest with e | e <;> rw [e] <;> decide)
  have waiting : s.swc.tail ≠ .waiting := fun e => by
    rcases h.waiting e with e | e <;> rcases rest with k | k <;> rw [k] at e <;> cases e
  unfold State.armed
  dsimp only
  refine limits_of_frame ?_ (answer_frame _ _) (by decide)
  rw [ringLimits_iff, ringView_enterState]
  have empty := limits_of_empty (v := { ringView s with keys := [], state := .armed }) slots
    (by unfold ringView; rw [op]; rfl) rfl provisional waiting
  exact empty

/-! ### An access to buffer memory (10) -/

theorem noteRead_limits {s : State} (h : s.RingLimits) (who : Requester) (w : Nat) (f : Bool) :
    (s.noteRead who w f).RingLimits := by
  refine limits_of_view h ?_
  cases who with
  | igu => unfold ringView State.noteRead; cases s.igu.prep <;> rfl
  | tku =>
    unfold ringView State.noteRead
    cases s.tku.op with
    | none => rfl
    | some op => by_cases e : op.stage = .searching <;> simp [e, opView] <;> rfl
  | smu | blu | opu => rfl

theorem noteWrite_limits {s : State} (h : s.RingLimits) (who : Requester) (w : WordWrite) (f : Bool) :
    (s.noteWrite who w f).RingLimits := by
  refine limits_of_view h ?_
  cases who with
  | igu =>
    unfold State.noteWrite
    dsimp only
    split
    · rfl
    · unfold ringView; cases s.igu.prep <;> rfl
  | blu => unfold State.noteWrite; dsimp only; split <;> (try split) <;> rfl
  | tku | smu | opu => rfl

theorem completeAccess_limits {s : State} (h : s.RingLimits) (g : Grant) (o : EccOutcome) :
    (s.completeAccess g o).RingLimits := by
  have marked (x : List (Nat × WordMark)) : ({ s with ecc := x } : State).RingLimits := limits_of_view h rfl
  have stored (w : WordWrite) (f : Bool) : (s.storeWord w f).RingLimits := limits_of_view h rfl
  have noted {u : State} (hu : u.RingLimits) (b : Bool) : (if b = true then u.noteEccError else u).RingLimits := by
    split
    · exact limits_of_view hu rfl
    · exact hu
  unfold State.completeAccess
  split
  · dsimp only
    split
    · exact noteRead_limits (noted (marked _) _) _ _ _
    · exact noted (marked _) _
  · dsimp only
    split
    · exact noteWrite_limits (noted (stored _ _) _) _ _ _
    · exact noted (stored _ _) _

end Sys2Proof.Proofs
end

section
/-! The counts that hold and the frame ring under every command: each command keeps `State.CountsHold`, `State.RingFollowsSession` and `State.RingLimits`; the settled O7, O9 and O11. -/
namespace Sys2Proof.Proofs
open Sys2Proof.Machine

/-! ### What an operation keeps -/

/-- From `s` to `t` the ranges of the counts and queues, the relation of the ring to the session and the limits of the ring are kept. -/
structure Keeps (s t : State) : Prop where
  counts : s.CountsHold → t.CountsHold
  ring : s.RingFollowsSession → t.RingFollowsSession
  limits : s.RingLimits → t.RingLimits

theorem Keeps.refl (s : State) : Keeps s s := ⟨id, id, id⟩

theorem Keeps.trans {s t u : State} (h : Keeps s t) (k : Keeps t u) : Keeps s u :=
  ⟨k.counts ∘ h.counts, k.ring ∘ h.ring, k.limits ∘ h.limits⟩

theorem Keeps.of_kept {s t : State} (h : Kept s t) (k : s.RingLimits → t.RingLimits) : Keeps s t :=
  ⟨h.counts, h.ring, k⟩

/-- The blocks that none of the three speaks of. -/
def outerBlocks : List Block := [.pins, .grant, .mem, .ecc, .lku, .psc, .free, .pending]

/-- Two states with the same seven blocks that the invariants read. -/
theorem outerFrame_of_same {s t : State} (igu : t.igu = s.igu) (tku : t.tku = s.tku) (swc : t.swc = s.swc)
    (smu : t.smu = s.smu) (blu : t.blu = s.blu) (cvm : t.cvm = s.cvm) (opu : t.opu = s.opu) :
    SameOutside outerBlocks s t := by
  intro b hb
  cases b with
  | igu => exact igu
  | tku => exact tku
  | swc => exact swc
  | smu => exact smu
  | blu => exact blu
  | cvm => exact cvm
  | opu => exact opu
  | pins | grant | mem | ecc | lku | psc | free | pending => exact absurd (by decide) hb

theorem Keeps.of_frame {s t : State} (f : SameOutside outerBlocks s t) : Keeps s t where
  counts := fun h => by
    unfold State.CountsHold
    rwa [f.smu (by decide), f.blu (by decide), f.igu (by decide), f.swc (by decide), f.cvm (by decide), f.opu (by decide)]
  ring := fun h => by
    unfold State.RingFollowsSession State.storing State.slotState
    rwa [f.igu (by decide), f.swc (by decide)]
  limits := fun h => limits_of_frame h f (by decide)

theorem Keeps.of_lku {s t : State} (f : SameOutside [.lku] s t) : Keeps s t := .of_frame (f.mono (by decide))

/-- An operation of the port, which leaves the ring and the session alone. -/
theorem Keeps.of_core {l : List Block} {s t : State} (k : KeptCore s t) (f : SameOutside l s t)
    (hl : Block.igu ∉ l ∧ Block.tku ∉ l ∧ Block.swc ∉ l) : Keeps s t where
  counts := k.counts
  ring := fun h => by
    unfold State.RingFollowsSession State.storing State.slotState
    rwa [f.igu hl.1, f.swc hl.2.2]
  limits := fun h => limits_of_frame h f hl

theorem answer_keeps (s : State) (b : ReplyBody) : Keeps s (s.answer b) := .of_lku (answer_frame s b)

theorem settle_keeps (s : State) : Keeps s s.settle := .of_kept (settle_kept s) settle_limits

/-- An operation of which the shared invariants are known, followed by `settle`. -/
theorem Keeps.settled {s t : State} (h : Kept s t) (k : s.RingLimits → t.RingLimits) : Keeps s t.settle :=
  (Keeps.of_kept h k).trans (settle_keeps t)

/-! ### What a command keeps -/

/-- Every state that an answer goes on to keeps the three. -/
def AnswerKeeps (s : State) (a : Answer) : Prop := ∀ t, a = .next t → Keeps s t

theorem AnswerKeeps.next {s t : State} (h : Keeps s t) : AnswerKeeps s (.next t) := by
  rintro _ ⟨⟩; exact h

theorem AnswerKeeps.stays (s : State) : AnswerKeeps s (.next s) := .next (.refl s)

theorem execute_keeps {s : State} {type : Byte} {handle : List Byte → State} (h : ∀ body, Keeps s (handle body)) :
    AnswerKeeps s (s.execute type handle) := by
  rcases execute_cases s type handle with ⟨_, body, _, _, e⟩ | e <;> rw [e]
  · exact .next (h body)
  · exact .stays s

theorem withoutFields_keeps {s t : State} (body : List Byte) (h : Keeps s t) : Keeps s (s.withoutFields body t) := by
  unfold State.withoutFields
  split
  · exact h
  · exact answer_keeps s _

/-! ### Frame ingest -/

theorem fipFv_kept (s : State) (b : Bool) : Kept s { s with pins.fipFv := b } := kept_pins s _ rfl rfl id
theorem fipFv_limits {s : State} (h : s.RingLimits) (b : Bool) : ({ s with pins.fipFv := b } : State).RingLimits :=
  limits_of_view h rfl

theorem execHeaderLine_keeps (fv : Bool) (beats : List Beat) (s : State) : AnswerKeeps s (execHeaderLine fv beats s) := by
  unfold execHeaderLine
  split
  · refine .next (.settled (((fipFv_kept s fv).trans (abortFilling_kept _)).trans (frameStart_kept _ _)) (fun h => ?_))
    have ended := abortFilling_limits (fipFv_limits h fv)
    exact frameStart_limits ended.1 ended.2 beats
  · exact .next (.of_kept (fipFv_kept s fv) (fipFv_limits · fv))

theorem execPictureLine_keeps (fv : Bool) (tag : Beat) (beats : List Beat) (s : State) :
    AnswerKeeps s (execPictureLine fv tag beats s) := by
  have level := Keeps.of_kept (fipFv_kept s fv) (fipFv_limits · fv)
  unfold execPictureLine
  dsimp only
  split
  · exact .next level
  · split
    · exact .next level
    · split
      · exact .next (.settled ((fipFv_kept s fv).trans (abortFilling_kept _))
          (fun h => (abortFilling_limits (fipFv_limits h fv)).1))
      · exact .next (.settled ((fipFv_kept s fv).trans (takeLine_kept _ _ _ _))
          (fun h => limits_of_view (fipFv_limits h fv) rfl))

theorem execFrameEnd_keeps (s : State) : AnswerKeeps s (execFrameEnd s) := by
  have level := Keeps.of_kept (fipFv_kept s false) (fipFv_limits · false)
  unfold execFrameEnd
  dsimp only
  split
  · exact .next level
  · next i hi =>
    have filling := slotState_of_firstIn hi
    split
    · exact .next (.settled (((fipFv_kept s false).trans (endUnaccepted_kept _ i)).trans (countGeometry_kept _))
        (fun h => countGeometry_limits ((endUnaccepted_onlyFrees _ i).limits (fipFv_limits h false))))
    · split
      · next r hr =>
        have work : (s.igu.slots[i].state).inWork := by
          rw [show s.igu.slots[i].state = .filling from filling]; trivial
        refine .next (.settled ((fipFv_kept s false).trans (acceptFrame_kept _ i r work hr)) (fun h => ?_))
        exact acceptFrame_limits (fipFv_limits h false) (by rw [filling]; decide) r
      · exact .next level

theorem execFrameAbort_keeps (s : State) : AnswerKeeps s (execFrameAbort s) :=
  .next (.settled (abortFilling_kept s) (fun h => (abortFilling_limits h).1))

theorem faultTaken_kept (s : State) : Kept s { s with igu.faultReport := false } :=
  kept_igu s _ (fun _ h => .inr h) (fun j r h => ⟨j, r, h, rfl⟩) id id

theorem execInputFault_keeps (s : State) : AnswerKeeps s (execInputFault s) := by
  have taken : s.RingLimits → ({ s with igu.faultReport := false } : State).RingLimits := fun h => limits_of_view h rfl
  unfold execInputFault
  split
  · dsimp only
    split
    · exact .next (.of_kept (faultTaken_kept s) taken)
    · exact .next (.settled ((faultTaken_kept s).trans (endSweep_kept _ _)) (fun h => endSweep_limits (taken h) _))
  · exact .stays s

/-- 01 R11, R13: a prepare pass is over: its slot is QUEUED in a storing state and FREE otherwise. -/
def afterPass (s : State) (p : Prep) : State :=
  if s.storing then ({ s with igu.prep := none } : State).setSlotState p.slot .queued
  else ({ s with igu.prep := none } : State).freeSlot p.slot

/-- 01 R11: the oldest FILLED-WAIT slot begins its pass. -/
def nextPass (s : State) : State :=
  match s.oldestIn .filledWait with
  | some i => s.startPrepare i
  | none => s

/-- 01 R11: the pass in hand has made its reads and its writes. -/
def PassMade (s : State) (p : Prep) : Prop :=
  nextRead (prepareReads (s.prepView p)) p.rd = none ∧ (prepareWrites (s.prepView p) s.cfg.wt s.cfg.ht).length ≤ p.written

theorem execPrepareComplete_of_made {s : State} {p : Prep} (hp : s.igu.prep = some p) (made : PassMade s p) :
    execPrepareComplete s = .next (nextPass (afterPass s p)).settle := by
  obtain ⟨reads, writes⟩ := made
  unfold execPrepareComplete
  simp only [hp, reads, Option.isSome_none, Bool.false_or, decide_eq_true_eq, Nat.not_lt.mpr writes, if_false]
  show (match (afterPass s p).oldestIn .filledWait with
    | some i => .next ((afterPass s p).startPrepare i).settle
    | none => .next (afterPass s p).settle : Answer) = _
  unfold nextPass
  cases (afterPass s p).oldestIn .filledWait <;> rfl

theorem execPrepareComplete_cases (s : State) : execPrepareComplete s = .next s
    ∨ ∃ p, s.igu.prep = some p ∧ execPrepareComplete s = .next (nextPass (afterPass s p)).settle := by
  cases hp : s.igu.prep with
  | none => left; unfold execPrepareComplete; rw [hp]
  | some p =>
    by_cases made : PassMade s p
    · exact .inr ⟨p, rfl, execPrepareComplete_of_made hp made⟩
    · left
      unfold execPrepareComplete
      rw [hp]
      refine if_pos ?_
      rw [Bool.or_eq_true, decide_eq_true_eq, ← Option.ne_none_iff_isSome, ← Nat.not_le]
      exact not_and_or.mp made

theorem afterPass_kept (s : State) (p : Prep) : Kept s (afterPass s p) := by
  have ended : Kept s { s with igu.prep := none } :=
    kept_igu s _ (fun _ h => .inr h) (fun j r h => ⟨j, r, h, rfl⟩) id id
  refine Kept.ite (fun k => ended.trans ?_) (fun _ => ended.trans (freeSlot_kept _ _))
  exact setSlotState_kept _ _ _ (.inr k)

theorem afterPass_prep (s : State) (p : Prep) : (afterPass s p).igu.prep = none := by
  unfold afterPass; split <;> rfl

theorem afterPass_limits {s : State} (h : s.RingLimits) {p : Prep} (hp : s.igu.prep = some p) :
    (afterPass s p).RingLimits := by
  have ended {v w : RingView} (e : v = w) : ({ v with prep := none } : RingView) = { w with prep := none } := by rw [e]
  unfold afterPass
  split
  · next k =>
    refine passOver_limits h hp (ended (ringView_setSlotState s p.slot .queued)) (.inr ⟨rfl, fun rest => ?_⟩)
    unfold State.storing at k
    rcases rest with e | e <;> rw [e] at k <;> cases k
  · exact passOver_limits h hp (ended (ringView_freeSlot s p.slot)) (.inl rfl)

theorem nextPass_kept (s : State) : Kept s (nextPass s) := by
  unfold nextPass
  split
  · exact startPrepare_kept s _
  · exact Kept.refl s

theorem nextPass_limits {s : State} (h : s.RingLimits) (idle : s.igu.prep = none) : (nextPass s).RingLimits := by
  unfold nextPass
  split
  · next i hi => exact startPrepare_limits h idle (by rw [slotState_of_oldestIn hi]; decide)
  · exact h

theorem execPrepareComplete_keeps (s : State) : AnswerKeeps s (execPrepareComplete s) := by
  rcases execPrepareComplete_cases s with e | ⟨p, hp, e⟩ <;> rw [e]
  · exact .stays s
  · exact .next (.settled ((afterPass_kept s p).trans (nextPass_kept _))
      (fun h => nextPass_limits (afterPass_limits h hp) (afterPass_prep s p)))

/-! ### Tracking -/

theorem execTrackStart_keeps (s : State) : AnswerKeeps s (execTrackStart s) := by
  unfold execTrackStart
  split
  · next i hop hi =>
    refine .next (.settled (beginTracking_kept s i) (fun h => beginTracking_limits h hop ?_))
    rw [slotState_of_oldestIn hi]; decide
  · exact .stays s

theorem execSearchComplete_keeps (s : State) : AnswerKeeps s (execSearchComplete s) := by
  unfold execSearchComplete
  split
  · exact .stays s
  · next op hop =>
    split
    · obtain ⟨only, same, slot, stage⟩ := formConsensus_keeps s op
      have kept := formConsensus_kept s op
      have limits (h : s.RingLimits) : (s.formConsensus op).1.RingLimits := tku_limits h (formConsensus_frame s op) same
      have hop := same.trans hop
      dsimp only
      split
      · exact .next (.settled (kept.trans (afterMisses_kept _ _)) (fun h => afterMisses_limits (limits h) hop slot stage))
      · refine .next (.settled (kept.trans (kept_tku _ _ rfl)) (fun h => putOp_limits (limits h) _ hop rfl ?_ (.inr ?_)))
        · exact slot
        · trivial
    · exact .stays s

theorem execPatchLost_keeps (s : State) : AnswerKeeps s (execPatchLost s) := by
  unfold execPatchLost
  split
  · exact .stays s
  · next op hop =>
    split
    · exact .next (.settled (afterMisses_kept s op) (fun h => afterMisses_limits h hop rfl rfl))
    · next set id rest _ =>
      have same : (s.losePatch set id).tku.op = some op := by rw [← hop]; unfold State.losePatch; split <;> rfl
      have limits (h : s.RingLimits) : (s.losePatch set id).RingLimits :=
        tku_limits h (losePatch_frame s set id) (same.trans hop.symm)
      dsimp only
      split
      · exact .next (.settled ((losePatch_kept s set id).trans (afterMisses_kept _ op))
          (fun h => afterMisses_limits (limits h) same rfl rfl))
      · refine .next (.of_kept ((losePatch_kept s set id).trans (kept_tku _ _ rfl))
          (fun h => putOp_limits (limits h) _ same rfl ?_ (.inr ?_)))
        · rfl
        · trivial
    · exact .stays s

/-- 03 R58: a lock state is taken and noticed, and the frame goes on. -/
theorem lockChanged_keeps {s : State} {op : TrackOp} (hop : s.tku.op = some op) (l : Lock) (b : LockState) :
    Keeps s (((s.setLock l).notifyTrack op b).frameResult op).settle := by
  refine .settled (((setLock_kept s l).trans (notifyTrack_kept _ op b)).trans (frameResult_kept _ op)) (fun h => ?_)
  have locked : (s.setLock l).RingLimits := limits_of_view h rfl
  have noticed : ((s.setLock l).notifyTrack op b).RingLimits := limits_of_view locked (ringView_notify _ _)
  refine frameResult_limits noticed ?_ rfl
  rw [(notifyTrack_frame _ _ _).tku (by decide)]; exact hop

theorem execTrackLocked_keeps (s : State) : AnswerKeeps s (execTrackLocked s) := by
  unfold execTrackLocked
  split
  · exact .stays s
  · next op hop =>
    split
    · exact .next (lockChanged_keeps hop _ _)
    · exact .stays s

theorem execTrackLost_keeps (s : State) : AnswerKeeps s (execTrackLost s) := by
  unfold execTrackLost
  split
  · exact .stays s
  · next op hop =>
    split
    · exact .next (lockChanged_keeps hop _ _)
    · exact .stays s

theorem execSelectionComplete_keeps (s : State) : AnswerKeeps s (execSelectionComplete s) := by
  unfold execSelectionComplete
  split
  · exact .stays s
  · next op hop =>
    split
    · exact .stays s
    · next sel rest _ =>
      split
      · dsimp only
        have f := replaceSet_frame s sel.kind (s.selectionView sel).run.set
        have kept := replaceSet_kept s sel.kind (s.selectionView sel).run.set
        have same : (s.replaceSet sel.kind (s.selectionView sel).run.set).tku.op = s.tku.op := by
          cases sel.kind <;> rfl
        generalize s.replaceSet sel.kind (s.selectionView sel).run.set = u at f kept same
        have limits (h : s.RingLimits) : u.RingLimits := tku_limits h f same
        split
        · refine .next (.settled (kept.trans (closeFrame_kept u _)) (fun h => closeFrame_limits (limits h) ?_))
          rw [same, hop]; rfl
        · refine .next (.settled (kept.trans (kept_tku _ _ rfl))
            (fun h => putOp_limits (limits h) _ (same.trans hop) rfl ?_ (.inl ?_))) <;> rfl
      · exact .stays s

/-! ### SWC's decisions -/

theorem finishFrame_keeps (s : State) : AnswerKeeps s (.next s.finishFrame.settle) :=
  .next (.settled (finishFrame_kept s) finishFrame_limits)

theorem execCalibrationDecision_keeps (s : State) : AnswerKeeps s (execCalibrationDecision s) := by
  unfold execCalibrationDecision
  split
  · exact .stays s
  · next op hop =>
    split
    · next r p hst _ hp =>
      split
      · next hs => exact .next (.settled ((decideDirection_kept s r p).trans (finishFrame_kept _))
          (fun h => finishFrame_limits (decideDirection_limits h r hs hop hst hp)))
      · exact finishFrame_keeps s
    · exact finishFrame_keeps s
    · exact .stays s

theorem execCalibrationTimeout_keeps (s : State) : AnswerKeeps s (execCalibrationTimeout s) := by
  unfold execCalibrationTimeout
  split
  · exact .stays s
  · next op hop =>
    split
    · next r hst _ =>
      split
      · next hs => exact .next (.settled ((recalibrate_kept s op r).trans (finishFrame_kept _))
          (fun h => finishFrame_limits (recalibrate_limits h r hs hop hst)))
      · exact finishFrame_keeps s
    · exact finishFrame_keeps s
    · exact .stays s

theorem endDue_keeps (s : State) (d : TrackStage) (c : EndCause) : AnswerKeeps s (.next (s.endDue d c)) := by
  refine .next (.of_kept (endDue_kept s d c) (fun h => ?_))
  unfold State.endDue
  split
  · exact h
  · split
    · exact settle_limits (finishFrame_limits (endSweep_limits h c))
    · exact h

theorem ringView_changePace (s : State) (r : FrameResult) : ringView (s.changePace r) = ringView s := by
  unfold State.changePace
  dsimp only
  rw [notify_eq]; rfl

theorem execPaceChange_keeps (s : State) : AnswerKeeps s (execPaceChange s) := by
  unfold execPaceChange
  split
  · exact .stays s
  · next op _ =>
    split
    · next r _ _ =>
      split
      · refine .next (.settled ((changePace_kept s r).trans (stallStep_kept _ op r)) (fun h => stallStep_limits ?_ op r))
        exact limits_of_view h (ringView_changePace s r)
      · exact finishFrame_keeps s
    · exact finishFrame_keeps s
    · exact .stays s

theorem ringView_acceptClosure (s : State) (r : FrameResult) (um vres : Int) :
    ringView (s.acceptClosure r um vres) = ringView s := by
  unfold State.acceptClosure State.closeTable
  dsimp only
  rw [notify_eq]; rfl

theorem execClosureAccepted_keeps (s : State) : AnswerKeeps s (execClosureAccepted s) := by
  unfold execClosureAccepted
  split
  · exact .stays s
  · next op hop =>
    split
    · next um vres r hst _ =>
      split
      · refine .next (.settled ((acceptClosure_kept s r um vres).trans (takeOrWait_kept _ op r .closure)) (fun h => ?_))
        have view := ringView_acceptClosure s r um vres
        have state : (s.acceptClosure r um vres).swc.state = s.swc.state := congrArg RingView.state view
        have same : (s.acceptClosure r um vres).tku.op = some op := by
          rw [(acceptClosure_frame s r um vres).tku (by decide)]; exact hop
        refine takeOrWait_limits (limits_of_view h view) op r .closure ?_ ?_ (fun o ho => ?_)
        · rw [state]; exact not_or.mpr (h.taking op hop (.inr ⟨um, vres, hst⟩))
        · rw [state]; exact not_rests_of_op h hop
        · cases same.symm.trans ho
          rw [hst]; nofun
      · exact finishFrame_keeps s
    · exact finishFrame_keeps s
    · exact .stays s

theorem execTakeKey_keeps (s : State) : AnswerKeeps s (execTakeKey s) := by
  unfold execTakeKey
  split
  · next res =>
    obtain ⟨seam, room⟩ := (keyResources_iff s).mp res
    split
    · next op hop =>
      split
      · next kind r hst _ =>
        refine .next (.settled (takeTracked_kept s op r kind seam) (fun h => takeTracked_limits h ⟨?_, ?_, fun o ho => ?_, room⟩ op r kind))
        · exact not_or.mpr (h.taking op hop (.inl ⟨kind, hst⟩))
        · exact not_rests_of_op h hop
        · cases hop.symm.trans ho
          rw [hst]; nofun
      · exact .stays s
    · next hop =>
      split
      · next i r hw _ _ =>
        refine .next (.settled (takeTail_kept s i r seam) (fun h => takeTail_limits h ⟨?_, ?_, fun o ho => ?_, room⟩ i r))
        · rcases h.waiting hw with e | e <;> rw [e] <;> decide
        · rcases h.waiting hw with e | e <;> rw [e] <;> decide
        · rw [hop] at ho; cases ho
      · exact .stays s
  · exact .stays s

theorem execTailKeyDecision_keeps (s : State) : AnswerKeeps s (execTailKeyDecision s) := by
  unfold execTailKeyDecision
  split
  · next k =>
    obtain ⟨fin, _, op, _⟩ := k
    exact .next (.settled (decideTail_kept s) (fun h => decideTail_limits h fin (Option.isNone_iff_eq_none.mp op)))
  · exact .stays s

/-! ### Seams, commits, the canvas -/

theorem execFinalKeyMark_keeps (s : State) : AnswerKeeps s (execFinalKeyMark s) := by
  unfold execFinalKeyMark
  split
  · exact .next (.settled (kept_blu s _ id) (fun h => limits_of_view h rfl))
  · exact .stays s

theorem commitRoom_iff (s : State) : s.commitRoom = true ↔ s.blu.queue.length < 2 := decide_eq_true_iff

theorem execSeamJobDone_keeps (s : State) : AnswerKeeps s (execSeamJobDone s) := by
  unfold execSeamJobDone
  split
  · next run job rest _ hq =>
    split
    · have written := writeJob_kept s run.rd.failed job
      have limits (h : s.RingLimits) := writeJob_limits h run.rd.failed job
      have queue : (s.writeJob run.rd.failed job).smu.queue = job :: rest := by
        rw [(writeJob_frame s _ job).smu (by decide)]; exact hq
      dsimp only
      split
      · next room => exact .next (.settled (written.trans (handCommit_kept _ job rest queue ((commitRoom_iff _).mp room)))
          (fun h => limits_of_frame (limits h) (handCommit_frame _ job rest) (by decide)))
      · exact .next (.settled (written.trans (kept_smu _ _ id)) (fun h => limits_of_view (limits h) rfl))
    · exact .stays s
  · exact .stays s

theorem execClosureJobBegin_keeps (s : State) : AnswerKeeps s (execClosureJobBegin s) := by
  unfold execClosureJobBegin
  split
  · split
    · exact .next (.settled (kept_smu s _ id) (fun h => limits_of_view h rfl))
    · exact .stays s
  · exact .stays s

theorem execCommitEnter_keeps (s : State) : AnswerKeeps s (execCommitEnter s) := by
  unfold execCommitEnter
  split
  · next run job rest _ hq =>
    split
    · next k => exact .next (.settled (handCommit_kept s job rest hq ((commitRoom_iff s).mp k.2))
        (fun h => limits_of_frame h (handCommit_frame s job rest) (by decide)))
    · exact .stays s
  · exact .stays s

theorem finalCommitDue_room {s : State} (h : s.finalCommitDue = true) : s.blu.queue.length < 2 := by
  unfold State.finalCommitDue at h
  split at h
  · cases h
  · exact (commitRoom_iff s).mp ((Bool.and_eq_true _ _).mp h).2

theorem execFinalCommitEnter_keeps (s : State) : AnswerKeeps s (execFinalCommitEnter s) := by
  unfold execFinalCommitEnter
  split
  · next k => exact .next (.settled (enterCommit_kept s _ (finalCommitDue_room k))
      (fun h => limits_of_frame h (enterCommit_frame s _) (by decide)))
  · exact .stays s

theorem execStripOpenRequest_keeps (s : State) : AnswerKeeps s (execStripOpenRequest s) := by
  unfold execStripOpenRequest
  split
  · exact .stays s
  · split
    · exact .next (.settled (openStrip_kept s _) (fun h => limits_of_frame h (openStrip_frame s _) (by decide)))
    · exact .stays s

theorem completeCommit_limits {s : State} (h : s.RingLimits) (c : Commit) (rest : List Commit) (x : Int) :
    (s.completeCommit c rest x).RingLimits := by
  have moved := limits_of_frame (commitKeys_limits h c) (moveFrontier_frame _ c x) (by decide)
  exact limits_of_frame (limits_of_view (t := { (s.commitKeys c).moveFrontier c x with blu.queue := rest, blu.run := none })
    moved rfl) (beginCommit_frame _) (by decide)

theorem execCommitComplete_keeps (s : State) : AnswerKeeps s (execCommitComplete s) := by
  unfold execCommitComplete
  split
  · next run c rest _ hq =>
    split
    · exact .next (.settled (completeCommit_kept s c rest _ hq) (fun h => completeCommit_limits h c rest _))
    · exact .stays s
  · exact .stays s

/-! ### Buffer memory and strip output -/

theorem execMemoryAccessComplete_keeps (o : EccOutcome) (s : State) : AnswerKeeps s (execMemoryAccessComplete o s) := by
  unfold execMemoryAccessComplete
  split
  · exact .next (.of_kept (arbitrate_kept s) arbitrate_limits)
  · next g _ =>
    split
    · refine .next (.of_kept (((completeAccess_kept s g o).trans (kept_grant _ _)).trans (arbitrate_kept _)) (fun h => ?_))
      exact arbitrate_limits (limits_of_view (completeAccess_limits h g o) rfl)
    · exact fun _ k => nomatch k

theorem execTransferStart_keeps (s : State) : AnswerKeeps s (execTransferStart s) := by
  unfold execTransferStart
  split
  · exact .stays s
  · split
    · exact .next (.settled (startTransfer_kept s _) (fun h => limits_of_frame h (startTransfer_frame s _) (by decide)))
    · exact .stays s

theorem lineBegun_keeps (s : State) (x : Transfer) (line : List Beat) :
    Keeps s (({ s with opu.xfer := some x } : State).presentLine line) := by
  have core := (core_opu s { s.opu with xfer := some x } id).trans
    (core_pins _ { s.pins with sopLv := true, sopLine := line, sopBeat := 0 })
  have frame : SameOutside [.opu, .pins] s (({ s with opu.xfer := some x } : State).presentLine line) :=
    (frame_opu s _).comp (presentLine_frame _ line) (by decide)
  exact .of_core core frame (by decide)

theorem execSopLineStart_keeps (s : State) : AnswerKeeps s (execSopLineStart s) := by
  unfold execSopLineStart
  split
  · split
    · exact .stays s
    · split
      · exact .next ((lineBegun_keeps s _ _).trans (settle_keeps _))
      · exact .stays s
  · exact .stays s

theorem execTransferComplete_keeps (s : State) : AnswerKeeps s (execTransferComplete s) := by
  unfold execTransferComplete
  split
  · split
    · exact .stays s
    · split
      · split
        · exact .next (.settled (transferFailed_kept s _ _)
            (fun h => limits_of_frame h (transferFailed_frame s _ _) (by decide)))
        · exact .next (.settled (transferClean_kept s _ _)
            (fun h => limits_of_frame h (transferClean_frame s _ _) (by decide)))
      · exact .stays s
  · exact .stays s

theorem execSopRdyChange_keeps (level : Bool) (s : State) : AnswerKeeps s (execSopRdyChange level s) :=
  .next (.of_frame ((frame_pins s _).mono (by decide)))

theorem execCutTrailerDone_keeps (s : State) : AnswerKeeps s (execCutTrailerDone s) := by
  unfold execCutTrailerDone
  split
  · split
    · refine .next (Keeps.of_core (l := [.pins, .opu]) (((core_pins s _).trans (core_clearTransfer _)).trans
        (core_setOpuState _ .idle)) ?_ (by decide))
      exact ((presentTrailer_frame s _ 2).comp (clearTransfer_frame _) (n := [.pins, .opu]) (by decide)).comp
        (setOpuState_frame _ _) (by decide)
    · exact .stays s
  · exact .stays s

theorem tick_keeps (s : State) : Keeps s s.tick :=
  .of_kept (tick_kept s) (fun h => limits_of_frame h (tick_frame s) (by decide))

theorem endHalt_keeps (s : State) : Keeps s s.endHalt := .of_core (endHalt_core s) (endHalt_frame s) (by decide)

theorem outputResume_keeps (s : State) (action : Option ResumeAction) : Keeps s (s.outputResume action) := by
  have answered {t : State} (h : Keeps s t) : Keeps s (t.answerCode .ok).settle :=
    (h.trans (answer_keeps t _)).trans (settle_keeps _)
  unfold State.outputResume
  split
  · exact answer_keeps s _
  · split
    · next halted =>
      split
      · exact answered (endHalt_keeps s)
      · split
        · exact answered (.of_kept (retryStrip_kept s _ halted)
            (fun h => limits_of_frame h (retryStrip_frame s _) (by decide)))
        · exact answered (.of_kept (skipStrip_kept s _ halted)
            (fun h => limits_of_frame h (skipStrip_frame s _) (by decide)))
    · exact answer_keeps s _

theorem execOutputResumeRetry_keeps (s : State) : AnswerKeeps s (execOutputResumeRetry s) :=
  execute_keeps (fun body => by
    split
    · exact .refl s
    · exact outputResume_keeps s _)

theorem execOutputResumeSkip_keeps (s : State) : AnswerKeeps s (execOutputResumeSkip s) :=
  execute_keeps (fun body => by
    split
    · exact .refl s
    · exact outputResume_keeps s _)

/-! ### The link, the store, the queries -/

theorem execLinkTransactionStart_keeps (s : State) : AnswerKeeps s (execLinkTransactionStart s) := by
  unfold execLinkTransactionStart
  split
  · exact .stays s
  · exact .next (.of_frame (((frame_pins s _).comp (frame_lku _ _) (n := [.pins, .lku]) (by decide)).mono (by decide)))

theorem receive_keeps (s : State) (bytes : List Byte) : Keeps s (s.receive bytes) := .of_lku (receive_frame s bytes)

theorem execLinkTransactionEnd_keeps (tail : List Byte) (s : State) : AnswerKeeps s (execLinkTransactionEnd tail s) := by
  unfold execLinkTransactionEnd
  split
  · refine .next (((receive_keeps s tail).trans (.of_lku (cutInbound_frame _))).trans (.of_frame ?_))
    exact ((frame_pins _ _).comp (frame_lku _ _) (n := [.pins, .lku]) (by decide)).mono (by decide)
  · exact .stays s

theorem execRequestDispatch_keeps (s : State) : AnswerKeeps s (execRequestDispatch s) := by
  unfold execRequestDispatch
  split
  · exact .next (.of_lku (frame_lku s _))
  · exact .stays s

theorem execUnknownType_keeps (s : State) : AnswerKeeps s (execUnknownType s) := by
  unfold execUnknownType
  split
  · exact .next (answer_keeps s _)
  · exact .stays s

theorem faultClear_keeps (s : State) (body : List Byte) : Keeps s (s.faultClear body) := by
  unfold State.faultClear
  split
  · exact answer_keeps s _
  · split
    · exact answer_keeps s _
    · exact (Keeps.of_lku (frame_lku s _)).trans (answer_keeps _ _)

theorem keyGet_keeps (s : State) (body : List Byte) : Keeps s (s.keyGet body) := by
  unfold State.keyGet
  split
  · exact answer_keeps s _
  · split <;> exact answer_keeps s _

theorem stripGet_keeps (s : State) (body : List Byte) : Keeps s (s.stripGet body) := by
  unfold State.stripGet
  split
  · exact answer_keeps s _
  · split <;> exact answer_keeps s _

theorem gyro_keeps (s : State) (g : Gyro) : Keeps s { s with tku.gyro := g } where
  counts := id
  ring := id
  limits := fun h => limits_of_view h rfl

theorem gyroPut_keeps (s : State) (body : List Byte) : Keeps s (s.gyroPut body) := by
  unfold State.gyroPut
  split
  · exact answer_keeps s _
  · split
    · exact (gyro_keeps s _).trans (answer_keeps _ _)
    · exact answer_keeps s _

theorem profileRead_keeps (s : State) (body : List Byte) : Keeps s (s.profileRead body) := by
  unfold State.profileRead
  split
  · exact answer_keeps s _
  · split
    · exact answer_keeps s _
    · split <;> exact answer_keeps s _

theorem psc_keeps (s : State) (p : Psc) : Keeps s { s with psc := p } := .of_frame ((frame_psc s p).mono (by decide))

theorem profileStage_keeps (s : State) (body : List Byte) : Keeps s (s.profileStage body) := by
  unfold State.profileStage
  split
  · exact answer_keeps s _
  · split
    · exact answer_keeps s _
    · exact (psc_keeps s _).trans (answer_keeps _ _)

theorem startBurn_keeps (s : State) (job : BurnJob) : Keeps s (s.startBurn job) :=
  (psc_keeps s _).trans (answer_keeps _ _)

/-- One check of a chain: the request is refused, or the rest of the chain is gone through. -/
theorem refusedOr_keeps {s t : State} {c : Prop} [Decidable c] (code : ResultCode) (h : Keeps s t) :
    Keeps s (if c then s.answerCode code else t) := by
  split
  · exact answer_keeps s _
  · exact h

theorem profileBurn_keeps (s : State) (body : List Byte) : Keeps s (s.profileBurn body) := by
  unfold State.profileBurn
  split
  · exact answer_keeps s _
  · split
    · exact answer_keeps s _
    · exact refusedOr_keeps _ (refusedOr_keeps _ (refusedOr_keeps _ (refusedOr_keeps _ (startBurn_keeps s _))))

theorem protectionBurn_keeps (s : State) (job : BurnJob) : Keeps s (s.protectionBurn job) :=
  refusedOr_keeps _ (refusedOr_keeps _ (refusedOr_keeps _ (startBurn_keeps s _)))

theorem profileProtect_keeps (s : State) (body : List Byte) : Keeps s (s.profileProtect body) := by
  unfold State.profileProtect
  split
  · exact answer_keeps s _
  · exact protectionBurn_keeps s _

theorem load_keeps (s : State) : Keeps s s.load := .of_frame ((load_frame s).mono (by decide))

theorem profileReload_keeps (s : State) : Keeps s s.profileReload := by
  unfold State.profileReload
  split
  · exact answer_keeps s _
  · split
    · exact answer_keeps s _
    · exact (load_keeps s).trans (answer_keeps _ _)

theorem notify_keeps (s : State) (b : NoticeBody) : Keeps s (s.notify b) := .of_lku (notify_frame s b)

theorem burnMatched_keeps (s : State) (job : BurnJob) : Keeps s (s.burnMatched job) := by
  cases job <;> exact (psc_keeps s _).trans (notify_keeps _ _)

theorem burnFailed_keeps (s : State) (job : BurnJob) : Keeps s (s.burnFailed job) :=
  ((psc_keeps s _).trans (.of_lku (setBurnFailed_frame _ true))).trans (notify_keeps _ _)

theorem profileReadBack_keeps (s : State) (job : BurnJob) (slot : Fin 4) (meant f : ProfileFields) (crc : BitVec 16) :
    Keeps s (s.profileReadBack job slot meant f crc) := by
  unfold State.profileReadBack
  dsimp only
  split
  · exact burnMatched_keeps s job
  · exact (psc_keeps s _).trans (burnFailed_keeps _ job)

theorem protectionReadBack_keeps (s : State) (job : BurnJob) (meant f : ProtectionFields) (crc : BitVec 16) :
    Keeps s (s.protectionReadBack job meant f crc) := by
  unfold State.protectionReadBack
  dsimp only
  split
  · exact burnMatched_keeps s job
  · exact (psc_keeps s _).trans (burnFailed_keeps _ job)

theorem execBurnComplete_keeps (found : ReadBack) (s : State) : AnswerKeeps s (execBurnComplete found s) := by
  unfold execBurnComplete
  split
  · exact .stays s
  · split
    · exact .next (burnMatched_keeps s _)
    · exact .next (profileReadBack_keeps s _ _ _ _ _)
    · exact .next (protectionReadBack_keeps s _ _ _ _)
    · exact .next (protectionReadBack_keeps s _ _ _ _)
    all_goals exact .stays s

/-! ### Sessions and resets -/

/-- The ring and the session of a part that rests with every slot FREE. -/
theorem ring_of_free {s : State} (h : ∀ j, s.slotState j = .free) : s.RingFollowsSession :=
  fun _ j => by rw [h j]; decide

theorem sessionArm_keeps (s : State) (body : List Byte) : Keeps s (s.sessionArm body) := by
  unfold State.sessionArm
  split
  · exact .refl s
  · split
    · split
      · exact answer_keeps s _
      · exact ⟨id, id, fun h => limits_of_view h rfl⟩
    · exact answer_keeps s _

theorem armed_keeps {s : State} (rest : Rests s.swc.state) (c : SessionConfig) : Keeps s (s.armed c) where
  counts := fun h => by
    unfold State.armed
    dsimp only
    refine (answer_keeps _ _).counts ((enterState_base _ _).counts ?_)
    exact h
  ring := fun h => by
    unfold State.armed
    dsimp only
    refine (answer_keeps _ _).ring ((enterState_kept _ .armed (.inr ?_)).ring ?_)
    · show s.swc.state.storing = false
      rcases rest with e | e <;> rw [e] <;> rfl
    · exact h
  limits := fun h => armed_limits h rest c

theorem columnMapBuilt_keeps (s : State) : Keeps s s.columnMapBuilt := by
  unfold State.columnMapBuilt
  split
  · split
    · next rest => exact armed_keeps rest _
    · exact .refl s
  · exact .refl s

theorem start_keeps {s : State} (armed : s.swc.state = .armed) : Keeps s s.start where
  counts := fun h => by
    obtain ⟨smu, blu, _, _, _, _, _, _, _, opu⟩ := h
    refine (enterState_base _ _).counts ?_
    exact ⟨smu, blu, Nat.zero_le _, Nat.zero_le _, Nat.zero_le _, Nat.zero_le _, Nat.zero_le _, Nat.zero_le _, Nat.zero_le _, opu⟩
  ring := fun _ storing => by
    have state : s.start.swc.state = s.cfg.direction.firstState := by
      unfold State.start; rw [enterState_swc]
    unfold State.storing at storing
    rw [state] at storing
    cases e : s.cfg.direction <;> rw [e] at storing <;> cases storing
  limits := fun h => start_limits h armed

theorem sessionStart_keeps (s : State) : Keeps s s.sessionStart := by
  unfold State.sessionStart
  split
  · next armed => exact (start_keeps armed).trans (answer_keeps _ _)
  · exact answer_keeps s _

theorem config_keeps (s : State) (c : Option SessionConfig) (t : Option Tunables) :
    Keeps s { s with swc.config := c, swc.pendingTunables := t } := ⟨id, id, fun h => limits_of_view h rfl⟩

theorem sessionTune_keeps (s : State) (body : List Byte) : Keeps s (s.sessionTune body) := by
  unfold State.sessionTune
  split
  · exact answer_keeps s _
  · split
    · exact (config_keeps s _ _).trans (answer_keeps _ _)
    · split
      · exact (config_keeps s _ _).trans (answer_keeps _ _)
      · exact answer_keeps s _

theorem sessionStop_keeps (s : State) : Keeps s s.sessionStop := by
  unfold State.sessionStop
  split
  · exact ((Keeps.of_kept (endSweep_kept s _) (endSweep_limits · _)).trans (answer_keeps _ _)).trans (settle_keeps _)
  · exact answer_keeps s _

theorem sessionSummary_keeps (s : State) : Keeps s s.sessionSummary := by
  unfold State.sessionSummary
  split <;> exact answer_keeps s _

theorem release_keeps (s : State) : Keeps s s.release where
  counts := fun h => by
    obtain ⟨smu, blu, dropped, geo, _, _, _, _, _, opu⟩ := h
    exact ⟨smu, blu, dropped, geo, Nat.zero_le _, Nat.zero_le _, Nat.zero_le _, Nat.zero_le _, Nat.zero_le _, opu⟩
  ring := fun _ => ring_of_free slotState_reset
  limits := fun _ => release_limits s

theorem sessionRelease_keeps (s : State) : Keeps s s.sessionRelease := by
  unfold State.sessionRelease
  split
  · exact ((release_keeps s).trans (notify_keeps _ _)).trans (answer_keeps _ _)
  · exact answer_keeps s _

theorem cutTransfer_number (s : State) : s.cutTransfer.opu.number = s.opu.number ∨ s.cutTransfer.opu.number = 0 := by
  unfold State.cutTransfer
  split
  · exact .inl rfl
  · exact .inl rfl
  · exact .inr rfl
  · exact .inr rfl

theorem abandon_keeps (s : State) : Keeps s s.abandon where
  counts := fun h => by
    obtain ⟨_, _, _, _, _, _, _, _, _, opu⟩ := h
    refine ⟨Nat.zero_le _, Nat.zero_le _, Nat.zero_le _, Nat.zero_le _, Nat.zero_le _, Nat.zero_le _, Nat.zero_le _,
      Nat.zero_le _, Nat.zero_le _, ?_⟩
    show s.cutTransfer.opu.number ≤ 65535
    rcases cutTransfer_number s with e | e <;> rw [e]
    · exact opu
    · decide
  ring := fun _ => ring_of_free slotState_reset
  limits := fun _ => abandon_limits s

theorem sessionAbort_keeps (s : State) : Keeps s s.sessionAbort := by
  unfold State.sessionAbort
  split
  · exact answer_keeps s _
  · exact ((abandon_keeps s).trans (notify_keeps _ _)).trans (answer_keeps _ _)

theorem engineClears_keeps (s : State) : Keeps s s.engineClears := by
  have cleared : Keeps s.abandon
      { s.abandon with swc.config := none, opu.state := s.abandon.opu.state.afterEngineReset } :=
    ⟨id, id, fun h => limits_of_view h rfl⟩
  exact (abandon_keeps s).trans (cleared.trans ((Keeps.of_lku (emptyNotices_frame _)).trans
    ((Keeps.of_lku (setOutputHalted_frame _ false)).trans (.of_lku (setBurnFailed_frame _ false)))))

theorem execEngineReset_keeps (s : State) : AnswerKeeps s (execEngineReset s) :=
  execute_keeps (fun body => withoutFields_keeps body (by
    split
    · exact answer_keeps s _
    · exact (engineClears_keeps s).trans (answer_keeps _ _)))

theorem reset_countsHold : State.reset.CountsHold := by unfold State.CountsHold; decide

theorem execPinReset_keeps (s : State) : AnswerKeeps s (execPinReset s) := by
  have reset (x : State) (f : SameOutside outerBlocks State.reset x) : Keeps s x :=
    ⟨fun _ => (Keeps.of_frame f).counts reset_countsHold,
      fun _ => (Keeps.of_frame f).ring (ring_of_free slotState_reset),
      fun _ => (Keeps.of_frame f).limits reset_limits⟩
  refine .next ((reset _ ?_).trans (load_keeps _))
  exact outerFrame_of_same rfl rfl rfl rfl rfl rfl rfl

/-! ### Every command -/

theorem exec_keeps (c : Instr) (s : State) : AnswerKeeps s (exec c s) := by
  cases c with
  | headerLine fv beats => exact execHeaderLine_keeps fv beats s
  | pictureLine fv tag beats => exact execPictureLine_keeps fv tag beats s
  | frameEnd => exact execFrameEnd_keeps s
  | frameAbort => exact execFrameAbort_keeps s
  | inputFault => exact execInputFault_keeps s
  | prepareComplete => exact execPrepareComplete_keeps s
  | trackStart => exact execTrackStart_keeps s
  | searchComplete => exact execSearchComplete_keeps s
  | calibrationDecision => exact execCalibrationDecision_keeps s
  | calibrationTimeout => exact execCalibrationTimeout_keeps s
  | noSweep | stalled | keyLimit => exact endDue_keeps s _ _
  | trackLocked => exact execTrackLocked_keeps s
  | trackLost => exact execTrackLost_keeps s
  | patchLost => exact execPatchLost_keeps s
  | paceChange => exact execPaceChange_keeps s
  | closureAccepted => exact execClosureAccepted_keeps s
  | selectionComplete => exact execSelectionComplete_keeps s
  | takeKey => exact execTakeKey_keeps s
  | tailKeyDecision => exact execTailKeyDecision_keeps s
  | finalKeyMark => exact execFinalKeyMark_keeps s
  | seamJobDone => exact execSeamJobDone_keeps s
  | closureJobBegin => exact execClosureJobBegin_keeps s
  | commitEnter => exact execCommitEnter_keeps s
  | finalCommitEnter => exact execFinalCommitEnter_keeps s
  | stripOpenRequest => exact execStripOpenRequest_keeps s
  | commitComplete => exact execCommitComplete_keeps s
  | memoryAccessComplete o => exact execMemoryAccessComplete_keeps o s
  | transferStart => exact execTransferStart_keeps s
  | sopLineStart => exact execSopLineStart_keeps s
  | sopRdyChange level => exact execSopRdyChange_keeps level s
  | transferComplete => exact execTransferComplete_keeps s
  | cutTrailerDone => exact execCutTrailerDone_keeps s
  | linkTransactionStart => exact execLinkTransactionStart_keeps s
  | messageSent => exact .next (receive_keeps s _)
  | linkTransactionEnd tail => exact execLinkTransactionEnd_keeps tail s
  | requestReceived bytes | linkFrameDiscard bytes => exact .next (receive_keeps s bytes)
  | requestDispatch => exact execRequestDispatch_keeps s
  | unknownType => exact execUnknownType_keeps s
  | identGet => exact execute_keeps (fun body => withoutFields_keeps body (answer_keeps s _))
  | statusGet =>
    exact execute_keeps (fun body => withoutFields_keeps body ((answer_keeps s _).trans (.of_lku (frame_lku _ _))))
  | faultClear => exact execute_keeps (faultClear_keeps s)
  | sessionArm => exact execute_keeps (sessionArm_keeps s)
  | columnMapBuilt => exact execute_keeps (fun _ => columnMapBuilt_keeps s)
  | sessionStart => exact execute_keeps (fun body => withoutFields_keeps body (sessionStart_keeps s))
  | sessionTune => exact execute_keeps (sessionTune_keeps s)
  | sessionStop => exact execute_keeps (fun body => withoutFields_keeps body (sessionStop_keeps s))
  | sessionAbort => exact execute_keeps (fun body => withoutFields_keeps body (sessionAbort_keeps s))
  | sessionRelease => exact execute_keeps (fun body => withoutFields_keeps body (sessionRelease_keeps s))
  | sessionSummaryGet => exact execute_keeps (fun body => withoutFields_keeps body (sessionSummary_keeps s))
  | keyGet => exact execute_keeps (keyGet_keeps s)
  | stripGet => exact execute_keeps (stripGet_keeps s)
  | gyroPut => exact execute_keeps (gyroPut_keeps s)
  | outputResumeRetry => exact execOutputResumeRetry_keeps s
  | outputResumeSkip => exact execOutputResumeSkip_keeps s
  | profileRead => exact execute_keeps (profileRead_keeps s)
  | profileStage => exact execute_keeps (profileStage_keeps s)
  | profileBurn => exact execute_keeps (profileBurn_keeps s)
  | profileProtect => exact execute_keeps (profileProtect_keeps s)
  | profileLock => exact execute_keeps (fun body => withoutFields_keeps body (protectionBurn_keeps s _))
  | profileReload => exact execute_keeps (fun body => withoutFields_keeps body (profileReload_keeps s))
  | burnComplete found => exact execBurnComplete_keeps found s
  | engineReset => exact execEngineReset_keeps s
  | pinReset => exact execPinReset_keeps s

/-- A step takes the command at the front of the queue, or is a beat of the strip output port. -/
theorem step_keeps {s t : State} (h : step s = .next t) : Keeps s t := by
  unfold step at h
  split at h
  · cases h; exact tick_keeps s
  · next c rest _ =>
    have taken : Keeps s { s with pending := rest } := .of_frame (outerFrame_of_same rfl rfl rfl rfl rfl rfl rfl)
    exact taken.trans (exec_keeps c _ t h)

/-! ### The settled statements -/

/-- Settles O7: every command keeps the ranges of the counts and of the two queues. -/
theorem countsHoldKept : Obligations.CountsHoldKept := fun _ _ h k => (step_keeps k).counts h

/-- With at most one slot in a state, its list has at most one entry. -/
theorem slotsIn_length_le_one {s : State} {st : SlotState}
    (h : ∀ i j, s.slotState i = st → s.slotState j = st → i = j) : (s.slotsIn st).length ≤ 1 := by
  have nodup : (s.slotsIn st).Nodup := (List.nodup_finRange 8).filter _
  match hl : s.slotsIn st with
  | [] => exact Nat.zero_le 1
  | [_] => exact Nat.le_refl 1
  | i :: j :: l =>
    rw [hl] at nodup
    have member {k : Fin 8} (hk : k ∈ i :: j :: l) : s.slotState k = st := (mem_slotsIn_iff s st k).mp (hl ▸ hk)
    have e := h i j (member (by simp)) (member (by simp))
    simp [e] at nodup

/-- 01 R10: what the limits say of the number of slots in a state. -/
theorem slotsIn_of_limits {s : State} (h : s.RingLimits) :
    (s.slotsIn .filling).length ≤ 1 ∧ (s.slotsIn .preparing).length ≤ 1 ∧ (s.slotsIn .tracking).length ≤ 1
      ∧ (s.slotsIn .last).length ≤ 1 ∧ (s.slotsIn .key).length ≤ 3 := by
  obtain ⟨hl, _⟩ := (ringLimits_iff s).mp h
  refine ⟨slotsIn_length_le_one hl.filling, slotsIn_length_le_one (fun i j hi hj => ?_),
    slotsIn_length_le_one (fun i j hi hj => ?_), slotsIn_length_le_one hl.last, ?_⟩
  · exact Option.some.inj ((hl.preparing i hi).symm.trans (hl.preparing j hj))
  · exact Option.some.inj ((hl.tracking i hi).symm.trans (hl.tracking j hj))
  · refine le_trans ?_ h.pinned
    refine (List.subperm_of_subset ((List.nodup_finRange 8).filter _) (fun i hi => ?_)).length_le
    rw [pinnedSlots_eq_pinned, mem_pinned]
    exact .inl ((mem_slotsIn_iff s .key i).mp hi)

/-- Settles O9: every command keeps the ring's relation to the session and its limits, and the limits bound the number of slots in each state. -/
theorem ringFollowsSessionKept : Obligations.RingFollowsSessionKept :=
  ⟨fun _ _ h k => (step_keeps k).ring h, fun _ _ h k => (step_keeps k).limits h, fun _ h => slotsIn_of_limits h⟩

end Sys2Proof.Proofs
end

section
/-! Header lines, the ends of a frame and the frames dropped (01 R4, R6 to R9, 03 R49): the settled O17, O19 and O20. -/
namespace Sys2Proof.Proofs
open Sys2Proof.Machine

/-! ### The end of a command in a storing state -/

/-- In a storing state a command ends with arbitration alone: of what it leaves only the grant changes. -/
theorem next_settled {u : State} (h : u.storing = true) :
    ∃ t, (.next u.settle : Answer) = .next t ∧ t = { u with grant := t.grant } :=
  ⟨u.settle, rfl, settle_eq (storing_not_finishing h)⟩

/-- The state with FIP_FV at level `b`: what every line of the frame input port is judged in. -/
def atLevel (b : Bool) (s : State) : State := { s with pins.fipFv := b }

/-! ### The FILLING frame is ended (01 R7, 03 R49) -/

theorem abortFilling_of_none {s : State} (h : s.firstIn .filling = none) : s.abortFilling = s := by
  unfold State.abortFilling; rw [h]

theorem endUnaccepted_eq {s : State} {i : Fin 8} {r : FrameRecord} (hr : s.igu.slots[i].record = some r) :
    s.endUnaccepted i = { s with
      igu := { s.igu with slots := s.igu.slots.set i {}
                          lineBuffers := s.igu.lineBuffers.filter (fun b => decide (b.slot ≠ i)) }
      tku.gyro := s.tku.gyro.handBack r.snapshot
      grant := (s.withdrawLines i).grant } := by
  unfold State.endUnaccepted
  rw [hr]; rfl

/-- 01 R7: what a frame dropped as ABORTED changes. -/
theorem abortFilling_eq {s : State} {i : Fin 8} {r : FrameRecord} (hi : s.firstIn .filling = some i)
    (hr : s.igu.slots[i].record = some r) : s.abortFilling = { s with
      igu := { s.igu with slots := s.igu.slots.set i {}
                          dropped := min 65535 (s.igu.dropped + 1)
                          lineBuffers := s.igu.lineBuffers.filter (fun b => decide (b.slot ≠ i)) }
      tku.gyro := s.tku.gyro.handBack r.snapshot
      lku.flags.frameDropped := true
      grant := (s.withdrawLines i).grant } := by
  unfold State.abortFilling
  rw [hi]
  dsimp only
  rw [endUnaccepted_eq hr]; rfl

theorem abortFilling_fipFv (s : State) (b : Bool) :
    (atLevel b s).abortFilling = atLevel b s.abortFilling := by
  have look : (atLevel b s).firstIn .filling = s.firstIn .filling := rfl
  unfold State.abortFilling
  rw [look]
  split <;> rfl

theorem firstIn_of_forall {s : State} {st : SlotState} (h : ∀ j, s.slotState j ≠ st) : s.firstIn st = none :=
  List.head?_eq_none_iff.mpr (List.eq_nil_iff_forall_not_mem.mpr (fun j hj => h j ((mem_slotsIn_iff s st j).mp hj)))

/-! ### A header line (01 R4) -/

theorem exec_headerLine (s : State) (beats : List Beat) :
    exec (.headerLine true beats) s = .next ((atLevel true s).abortFilling.frameStart beats).settle := rfl

/-- 01 R4: a header line with no frame FILLING is a frame start. -/
theorem exec_headerLine_of_none {s : State} (h : s.firstIn .filling = none) (beats : List Beat) :
    exec (.headerLine true beats) s = .next ((atLevel true s).frameStart beats).settle := by
  rw [exec_headerLine, abortFilling_of_none (s := atLevel true s) h]

/-- 01 R4 step 1, R7: a header line while a frame is FILLING ends that frame first. -/
theorem exec_headerLine_truncates {s : State} (h : s.abortFilling.firstIn .filling = none) (beats : List Beat) :
    exec (.headerLine true beats) s = exec (.headerLine true beats) s.abortFilling := by
  rw [exec_headerLine_of_none h, exec_headerLine, abortFilling_fipFv]

theorem frameStart_of_not_storing {s : State} (h : s.storing = false) (beats : List Beat) : s.frameStart beats = s := by
  unfold State.frameStart; rw [h]; rfl

/-- 01 R4 step 3: a header line of fewer than 4 beats. -/
theorem frameStart_of_short {s : State} (h : s.storing = true) {beats : List Beat} (short : beats.length < 3) :
    s.frameStart beats = s.countGeometry := by
  unfold State.frameStart
  rw [h]
  match beats with
  | [] | [_] | [_, _] => rfl
  | _ :: _ :: _ :: _ => simp at short; omega

/-- 01 R4 steps 4 to 6: a header line of 4 beats or more. -/
theorem frameStart_of_long {s : State} (h : s.storing = true) (b1 b2 b3 : Beat) (more : List Beat) :
    s.frameStart (b1 :: b2 :: b3 :: more)
      = if s.igu.lastCounter = some (b1.setWidth 8) then s
        else match s.firstIn .free with
          | some i => s.startFrame i (b1.setWidth 8) b2.toNat
          | none => s.countDropped := by
  unfold State.frameStart
  rw [h]; rfl

/-- 01 R9: the run of GEOMETRY rejects, and the report at 8. -/
theorem countGeometry_eq (s : State) : s.countGeometry = { s with igu := { s.igu with
    geoRun := if s.igu.geoRun < 8 then s.igu.geoRun + 1 else s.igu.geoRun
    faultReport := s.igu.faultReport || decide (s.igu.geoRun = 7) } } := by
  unfold State.countGeometry
  by_cases h : s.igu.geoRun < 8
  · rw [if_pos h, if_pos h]
    simp only [Nat.reduceEqDiff]
  · have : decide (s.igu.geoRun = 7) = false := decide_eq_false (by omega)
    rw [if_neg h, if_neg h, this, Bool.or_false]

/-- Settles O17: each clause is one branch of a header line, and the branch's own equation; a FILLING frame is ended first. -/
theorem headerLineTakesSlot : Obligations.HeaderLineTakesSlot := by
  refine ⟨fun s b1 b2 b3 more i hs hf hi hc => ?_, fun s beats => rfl, fun s beats i r hs hl hr => ?_,
    fun s beats hs hf => ?_, fun s beats hs hf short => ?_, fun s b1 b2 b3 more hs hf hc => ?_⟩
  · have start : (atLevel true s).frameStart (b1 :: b2 :: b3 :: more)
        = (atLevel true s).startFrame i (b1.setWidth 8) b2.toNat := by
      rw [frameStart_of_long (s := atLevel true s) hs,
        if_neg (show (atLevel true s).igu.lastCounter ≠ _ from hc), show (atLevel true s).firstIn .free = some i from hi]
    rw [exec_headerLine_of_none hf, start]
    exact next_settled (u := (atLevel true s).startFrame i (b1.setWidth 8) b2.toNat) hs
  · have hi : s.firstIn .filling = some i := by unfold State.firstIn; rw [hl]; rfl
    have ended := abortFilling_eq hi hr
    have none : s.abortFilling.firstIn .filling = none := by
      refine firstIn_of_forall (fun j hj => ?_)
      rw [ended] at hj
      have hj : (s.freeSlot i).slotState j = .filling := hj
      rw [slotState_freeSlot] at hj
      split at hj
      · cases hj
      · next ne => exact ne (List.mem_singleton.mp (hl ▸ (mem_slotsIn_iff s .filling j).mpr hj))
    refine ⟨s.abortFilling, exec_headerLine_truncates none beats, ?_⟩
    rw [ended]
    exact ⟨rfl, rfl, rfl, rfl, rfl, rfl⟩
  · rw [exec_headerLine_of_none hf, frameStart_of_not_storing (s := atLevel true s) hs]; rfl
  · rw [exec_headerLine_of_none hf, frameStart_of_short (s := atLevel true s) hs short, countGeometry_eq]
    exact next_settled (u := { atLevel true s with igu := _ }) hs
  · rw [exec_headerLine_of_none hf, frameStart_of_long (s := atLevel true s) hs,
      if_pos (show (atLevel true s).igu.lastCounter = _ from hc)]
    exact next_settled (u := atLevel true s) hs

/-! ### Frames dropped (01 R7, R8) -/

/-- Settles O20: FIP_ABT is the end of the FILLING frame as ABORTED; a frame start that finds no FREE slot counts a drop. -/
theorem framesDropped : Obligations.FramesDropped := by
  refine ⟨fun s i r hs hi hr => ?_, fun s b1 b2 b3 more hs hf free hc => ?_⟩
  · obtain ⟨t, e, ht⟩ := next_settled (u := s.abortFilling) (by rw [abortFilling_eq hi hr]; exact hs)
    refine ⟨t, e, ?_⟩
    rw [ht, abortFilling_eq hi hr]
    exact ⟨rfl, rfl, rfl, rfl, rfl⟩
  · have start : (atLevel true s).frameStart (b1 :: b2 :: b3 :: more)
        = (atLevel true s).countDropped := by
      rw [frameStart_of_long (s := atLevel true s) hs,
        if_neg (show (atLevel true s).igu.lastCounter ≠ _ from hc), show (atLevel true s).firstIn .free = none from free]
    rw [exec_headerLine_of_none hf, start]
    exact next_settled (u := (atLevel true s).countDropped) hs

/-! ### Frame end (01 R6) -/

/-- 01 R6: a frame end rejects the FILLING frame when its shape is bad. -/
theorem exec_frameEnd_of_bad {s : State} {i : Fin 8} (hi : s.firstIn .filling = some i) (bad : s.badShape = true) :
    exec .frameEnd s = .next ((atLevel false s).endUnaccepted i).countGeometry.settle := by
  show execFrameEnd s = _
  unfold execFrameEnd
  dsimp only
  split
  · next none => exact absurd (hi.symm.trans none) (Option.some_ne_none i)
  · next j some =>
      obtain rfl := Option.some.inj (hi.symm.trans some)
      exact if_pos bad

/-- 01 R6: and accepts it otherwise. -/
theorem exec_frameEnd_of_good {s : State} {i : Fin 8} {r : FrameRecord} (hi : s.firstIn .filling = some i)
    (hr : s.igu.slots[i].record = some r) (good : s.badShape = false) :
    exec .frameEnd s = .next ((atLevel false s).acceptFrame i r).settle := by
  show execFrameEnd s = _
  unfold execFrameEnd
  dsimp only
  split
  · next none => exact absurd (hi.symm.trans none) (Option.some_ne_none i)
  · next j some =>
      obtain rfl := Option.some.inj (hi.symm.trans some)
      rw [hr]
      exact if_neg (show ¬ s.badShape = true by rw [good]; decide)

/-- 01 R6, R11: what the acceptance of the frame of a slot changes. -/
theorem acceptFrame_eq (s : State) (i : Fin 8) (r : FrameRecord) :
    s.acceptFrame i r = { s with igu := { s.igu with
      slots := s.igu.slots.set i
        { state := if s.igu.prep = none then .preparing else .filledWait
          record := some { r with stored := some s.igu.nextStored
                                  interval := some (intervalOf s.igu.lastCounter r.counter) } }
      nextStored := s.igu.nextStored + 1
      lastCounter := some r.counter
      geoRun := 0
      prep := if s.igu.prep = none then some { slot := i } else s.igu.prep } } := by
  unfold State.acceptFrame State.putSlot State.startPrepare State.setSlotState
  cases hp : s.igu.prep with
  | none => simp
  | some p => simp [hp]

/-- Settles O19: the shape judges a frame end; its acceptance and its rejection are each given by one equation. -/
theorem frameEnds : Obligations.FrameEnds := by
  intro s i r hs hi hr
  refine ⟨fun shaped lines => ?_, fun bad run => ?_⟩
  · have good : s.badShape = false := by unfold State.badShape; simp [shaped, lines]
    rw [exec_frameEnd_of_good hi hr good, acceptFrame_eq]
    obtain ⟨t, e, ht⟩ := next_settled (u := (atLevel false s).acceptFrame i r) (by rw [acceptFrame_eq]; exact hs)
    rw [acceptFrame_eq] at e ht
    refine ⟨t, e, ?_⟩
    rw [ht]
    exact ⟨rfl, rfl, rfl, rfl, rfl⟩
  · have bad : s.badShape = true := by unfold State.badShape; simpa using bad
    rw [exec_frameEnd_of_bad hi bad, endUnaccepted_eq (s := atLevel false s) hr, countGeometry_eq]
    obtain ⟨t, e, ht⟩ := next_settled (u := { atLevel false s with igu := _, tku.gyro := _, grant := _ }) hs
    refine ⟨t, e, ?_⟩
    rw [ht]
    have eighth : decide (s.igu.geoRun = 7) = decide (s.igu.geoRun + 1 = 8) := decide_eq_decide.mpr (by omega)
    exact ⟨rfl, if_pos run, congrArg (s.igu.faultReport || ·) eighth, rfl, rfl⟩

end Sys2Proof.Proofs
end

section
/-! The tier 1 statements of the family: reset, the INPUT_FAULT report, the end of a prepare pass and the start of a tracking operation: the settled O11, O21, O22 and O23. -/
namespace Sys2Proof.Proofs
open Sys2Proof.Machine

/-! ### The state after reset -/

/-- Settles O11: each invariant is read off the reset values; the ring's and the counts' were needed for the step lemmas. -/
theorem resetMeetsInvariants : Obligations.ResetMeetsInvariants := by
  have noRecord (j : Fin 8) : (Igu.reset.slots[j]).record = none := by revert j; decide
  have gyro : State.reset.GyroInRange := by
    refine ⟨by unfold Gyro.InRange; decide, fun j r hr => ?_⟩
    exact absurd ((noRecord j).symm.trans hr) (Option.some_ne_none r).symm
  exact ⟨by unfold State.MemoryCanonical; decide, by unfold State.LinkBounded; decide, gyro, reset_countsHold,
    by unfold State.PortLevels; decide, ring_of_free slotState_reset, (fun _ _ burn => nomatch burn), reset_limits,
    fun finishing => nomatch finishing⟩

/-! ### What a command's end does to the ingest unit -/

/-- Of IGU only slots, which become FREE, and line buffers change. -/
def Vacates (s t : State) : Prop :=
  t.igu = { s.igu with slots := t.igu.slots, lineBuffers := t.igu.lineBuffers }
    ∧ ∀ j : Fin 8, t.slotState j = s.slotState j ∨ t.slotState j = .free

theorem Vacates.refl (s : State) : Vacates s s := ⟨rfl, fun _ => .inl rfl⟩

theorem Vacates.trans {s t u : State} (h : Vacates s t) (k : Vacates t u) : Vacates s u := by
  refine ⟨by rw [k.1, h.1], fun j => ?_⟩
  rcases k.2 j with e | e
  · rw [e]; exact h.2 j
  · exact .inr e

theorem Vacates.foldl {α : Type} {f : State → α → State} (hf : ∀ s a, Vacates s (f s a)) (xs : List α) (s : State) :
    Vacates s (xs.foldl f s) := by
  induction xs generalizing s with
  | nil => exact .refl s
  | cons a as ih => exact (hf s a).trans (ih _)

theorem Vacates.of_igu {s t : State} (e : t.igu = s.igu) : Vacates s t :=
  ⟨by rw [e], fun j => .inl (by unfold State.slotState; rw [e])⟩

theorem freeSlot_vacates (s : State) (i : Fin 8) : Vacates s (s.freeSlot i) := ⟨rfl, (freeSlot_onlyFrees s i).2⟩

theorem freeSlots_vacates (s : State) (l : List (Fin 8)) : Vacates s (s.freeSlots l) := .foldl freeSlot_vacates l s

theorem withdrawLines_vacates (s : State) (i : Fin 8) : Vacates s (s.withdrawLines i) := ⟨rfl, fun _ => .inl rfl⟩

theorem discardFrames_vacates (s : State) : Vacates s s.discardFrames :=
  (Vacates.foldl (fun s i => (withdrawLines_vacates s i).trans (freeSlot_vacates _ i)) _ s).trans (freeSlots_vacates _ _)

theorem enterState_vacates (s : State) (a : SessionState) : Vacates s (s.enterState a) := .of_igu (enterState_igu s a)

theorem dropProvisional_vacates (s : State) : Vacates s s.dropProvisional := by
  unfold State.dropProvisional
  split
  · next i _ _ =>
    show Vacates s (s.freeReference i)
    unfold State.freeReference
    split
    · exact .refl s
    · exact freeSlot_vacates s i
  · exact .refl s

theorem endSweep_vacates (s : State) (c : EndCause) : Vacates s (s.endSweep c) := by
  unfold State.endSweep
  split
  · exact ((enterState_vacates { s with swc.endCause := some c } .finishing).trans (discardFrames_vacates _)).trans
      (dropProvisional_vacates _)
  · exact .refl s

theorem checkDone_vacates (s : State) : Vacates s s.checkDone := by
  unfold State.checkDone
  split
  · refine Vacates.trans ?_ (enterState_vacates _ _)
    split
    · exact freeSlots_vacates s _
    · exact .refl s
  · exact .refl s

theorem settle_vacates (s : State) : Vacates s s.settle := checkDone_vacates s

/-! ### The INPUT_FAULT report (01 R9, 05 R99) -/

/-- 05 R99: IGU's report is taken. -/
def reportTaken (s : State) : State := { s with igu.faultReport := false }

/-- Settles O21: the report is taken and, with the closure-pending mark clear, it ends the sweep. -/
theorem inputFaultEndsSweep : Obligations.InputFaultEndsSweep := by
  refine ⟨fun s report hs clear => ?_, fun s report mark => ?_⟩
  · have run : exec .inputFault s = .next ((reportTaken s).endSweep .inputFault).settle := by
      show execInputFault s = _
      unfold execInputFault
      rw [if_pos report]
      exact if_neg (Bool.eq_false_iff.mp clear)
    have igu := ((endSweep_vacates (reportTaken s) .inputFault).trans (settle_vacates _)).1
    have storing : (reportTaken s).storing = true := hs
    refine ⟨_, run, by rw [igu]; rfl, ?_, settle_finishing (endSweep_state storing _), ?_,
      .of_lku ((endSweep_noticed storing _).kept (settle_notices _)) rfl⟩
    · rw [settle_endCause, endSweep_endCause storing]
    · rw [settle_keys, endSweep_keys]; rfl
  · show execInputFault s = _
    unfold execInputFault
    rw [if_pos report]
    exact if_pos mark

/-! ### The end of a prepare pass (01 R11, R13) -/

/-- 01 R11: which slot is the oldest hangs on the slots in the state and on the stored numbers. -/
theorem oldestIn_congr {s t : State} {st : SlotState} (slots : t.slotsIn st = s.slotsIn st)
    (stored : t.storedOf = s.storedOf) : t.oldestIn st = s.oldestIn st := by
  unfold State.oldestIn; rw [slots, stored]

theorem slotsIn_congr {s t : State} {st : SlotState} (h : ∀ j, t.slotState j = st ↔ s.slotState j = st) :
    t.slotsIn st = s.slotsIn st := by
  unfold State.slotsIn
  exact List.filter_congr (fun j _ => decide_eq_decide.mpr (h j))

theorem storedOf_setSlotState (s : State) (i : Fin 8) (st : SlotState) : (s.setSlotState i st).storedOf = s.storedOf := by
  funext j
  unfold State.storedOf
  rw [State.setSlotState_igu, slots_get_set]
  split
  · next e => subst e; rfl
  · rfl

theorem afterPass_of_storing {s : State} (hs : s.storing = true) (p : Prep) :
    afterPass s p = ({ s with igu.prep := none } : State).setSlotState p.slot .queued := if_pos hs

theorem afterPass_of_not_storing {s : State} (hs : s.storing = false) (p : Prep) :
    afterPass s p = ({ s with igu.prep := none } : State).freeSlot p.slot := if_neg (Bool.eq_false_iff.mp hs)

theorem oldestIn_afterPass {s : State} {p : Prep} (hs : s.storing = true) (hp : s.slotState p.slot = .preparing) :
    (afterPass s p).oldestIn .filledWait = s.oldestIn .filledWait := by
  rw [afterPass_of_storing hs]
  refine oldestIn_congr (slotsIn_congr (fun j => ?_)) (storedOf_setSlotState _ _ _)
  rw [slotState_setSlotState]
  split
  · next e => subst e; rw [hp]; decide
  · exact Iff.rfl

theorem nextPass_prep {s : State} (idle : s.igu.prep = none) :
    (nextPass s).igu.prep = (s.oldestIn .filledWait).map (fun j => { slot := j }) := by
  unfold nextPass
  split
  · next e => rw [e]; rfl
  · next e => rw [e, idle]; rfl

theorem slotState_nextPass {s : State} {i : Fin 8} (h : s.slotState i ≠ .filledWait) :
    (nextPass s).slotState i = s.slotState i := by
  unfold nextPass
  split
  · next j hj =>
    show (s.setSlotState j .preparing).slotState i = _
    rw [slotState_setSlotState, if_neg]
    rintro rfl
    exact h (slotState_of_oldestIn hj)
  · rfl

theorem nextPass_eq (s : State) : nextPass s = { s with igu := (nextPass s).igu } := by
  unfold nextPass; split <;> rfl

/-- Settles O22: the pass's slot moves, and in a storing state the oldest FILLED-WAIT slot, which is another one, begins its pass. -/
theorem prepareCompletes : Obligations.PrepareCompletes := by
  intro s p hp preparing reads writes
  have run : exec .prepareComplete s = .next (nextPass (afterPass s p)).settle :=
    execPrepareComplete_of_made hp ⟨reads, writes⟩
  refine ⟨fun hs => ?_, fun hs empty => ?_⟩
  · have after : afterPass s p = { s with igu := (afterPass s p).igu } := by rw [afterPass_of_storing hs]; rfl
    have queued : (afterPass s p).slotState p.slot = .queued := by
      rw [afterPass_of_storing hs, slotState_setSlotState, if_pos rfl]
    have storing : (nextPass (afterPass s p)).storing = true := by rw [nextPass_eq, after]; exact hs
    obtain ⟨t, e, ht⟩ := next_settled storing
    refine ⟨t, run.trans e, ?_⟩
    have igu : t.igu = (nextPass (afterPass s p)).igu := by rw [ht]
    refine ⟨?_, ?_, ?_⟩
    · rw [igu, nextPass_prep (afterPass_prep s p), oldestIn_afterPass hs preparing]
    · unfold State.slotState
      rw [igu]
      exact (slotState_nextPass (by rw [queued]; decide)).trans queued
    · rw [ht, nextPass_eq, after]
  · have freed : (afterPass s p).slotState p.slot = .free := by
      rw [afterPass_of_not_storing hs, slotState_freeSlot, if_pos rfl]
    have noneWaits : (afterPass s p).oldestIn .filledWait = none := by
      have list : (afterPass s p).slotsIn .filledWait = [] := by
        refine List.eq_nil_iff_forall_not_mem.mpr (fun j hj => ?_)
        have hj := (mem_slotsIn_iff _ _ j).mp hj
        rw [afterPass_of_not_storing hs, slotState_freeSlot] at hj
        split at hj
        · cases hj
        · exact List.not_mem_nil (empty ▸ (mem_slotsIn_iff s .filledWait j).mpr hj)
      unfold State.oldestIn; rw [list]; rfl
    have stays : nextPass (afterPass s p) = afterPass s p := by unfold nextPass; rw [noneWaits]
    rw [stays] at run
    obtain ⟨igu, slots⟩ := settle_vacates (afterPass s p)
    refine ⟨_, run, by rw [igu]; exact afterPass_prep s p, ?_⟩
    rcases slots p.slot with e | e
    · exact e.trans freed
    · exact e

/-! ### The start of a tracking operation (01 R11, 03 R53, 08 R146) -/

theorem exec_trackStart_of_oldest {s : State} {i : Fin 8} (idle : s.tku.op = none) (hi : s.oldestIn .queued = some i) :
    exec .trackStart s = .next (s.beginTracking i).settle := by
  show execTrackStart s = _
  unfold execTrackStart
  rw [idle, hi]

/-- 05 R100: while a tracking operation is in progress a command ends with arbitration alone. -/
theorem settle_of_op {s : State} {op : TrackOp} (h : s.tku.op = some op) :
    s.settle = { s with grant := s.settle.grant } := by
  have busy : s.workDone = false := by unfold State.workDone; rw [h]; rfl
  have stays : s.checkDone = s := by
    unfold State.checkDone
    rw [if_neg]
    rintro ⟨_, done⟩
    rw [busy] at done; cases done
  unfold State.settle
  rw [stays]; rfl

theorem predict_of_velocity {s : State} {r : FrameRecord} {n : Nat} (hn : r.interval = some n)
    (h : s.cfg.gyroUse = false ∨ r.snapshot.received = false) :
    s.predict r = (s.tku.held.1 + s.tku.step.1 * n, s.tku.held.2 + s.tku.step.2 * n) := by
  have off : (s.cfg.gyroUse && r.snapshot.received) = false := (Bool.and_eq_false_iff).mpr h
  unfold State.predict
  rw [off, hn]; rfl

theorem predict_of_gyro {s : State} {r : FrameRecord} (use : s.cfg.gyroUse = true) (got : r.snapshot.received = true) :
    s.predict r = (s.tku.held.1 + roundDiv (r.snapshot.yaw * s.cfg.f16) 4000000,
      s.tku.held.2 - roundDiv (r.snapshot.pitch * s.cfg.f16) 4000000) := by
  unfold State.predict
  rw [use, got]; rfl

theorem closurePredict_eq (s : State) (p : Int × Int) : s.closurePredict p
    = (roundDiv (s.sgn * (s.lastKey.u + 4 * s.sgn * p.1 - 16 * s.cfg.uc)) 4,
       roundDiv (s.lastKey.v + 4 * p.2 + 16 * (s.cfg.mrows : Int)) 4) := by
  unfold State.closurePredict SessionConfig.v0
  dsimp only
  rw [sub_neg_eq_add]

/-- Settles O23: the operation begun is the oldest QUEUED slot's, with the predictions' equations. -/
theorem trackStartTakesOldest : Obligations.TrackStartTakesOldest := by
  intro s i r n idle hi hr hn
  have record : s.igu.slots[i].record.getD default = r := by rw [hr]; rfl
  have begun : (s.beginTracking i).tku.op = some _ := rfl
  rw [record] at begun
  have op := (congrArg (·.tku.op) (settle_of_op begun)).trans begun
  refine ⟨_, _, exec_trackStart_of_oldest idle hi, op, rfl, rfl, rfl, fun off => ?_, fun use got => ?_, ?_, fun closing => ?_, ?_⟩
  · rw [predict_of_velocity hn off]; exact ⟨rfl, rfl⟩
  · rw [predict_of_gyro use got]; exact ⟨rfl, rfl⟩
  · split
    · next closing => exact iff_of_true rfl closing
    · next other => exact iff_of_false Bool.false_ne_true other
  · rw [if_pos closing, closurePredict_eq]
  · rw [settle_of_op begun]
    unfold State.beginTracking
    rw [record]

end Sys2Proof.Proofs
end

section
/-! The end of a selection (01 R12, 02 R22, R23): the settled O27. -/
namespace Sys2Proof.Proofs
open Sys2Proof.Machine

/-! ### The set replaced (02 R22) -/

theorem replaceSet_eq (s : State) (kind : SetKind) (set : List Patch) :
    s.replaceSet kind set = { s with tku := (s.replaceSet kind set).tku } := by
  cases kind <;> rfl

theorem replaceSet_of_closure (s : State) (set : List Patch) :
    (s.replaceSet .closure set).tku = { s.tku with closureSet := set } := rfl

theorem replaceSet_of_main {kind : SetKind} (h : kind ≠ .closure) (s : State) (set : List Patch) :
    (s.replaceSet kind set).tku = { s.tku with mainSet := set } := by
  cases kind with
  | closure => exact absurd rfl h
  | calibration | leading => rfl

/-! ### The end of the operation (01 R12) -/

theorem heldAsKey_iff (s : State) (i : Fin 8) :
    s.heldAsKey i = true ↔ s.swc.cal.provisional = some i ∨ ∃ k ∈ s.swc.keys, k.slot = some i := by
  unfold State.heldAsKey
  rw [Bool.or_eq_true, decide_eq_true_eq, List.any_eq_true]
  simp only [decide_eq_true_eq]

/-- 01 R12: of TKU the end of a frame ends the operation alone. -/
theorem closeFrame_tku (s : State) (op : TrackOp) : (s.closeFrame op).tku = { s.tku with op := none } := by
  by_cases h : s.heldAsKey op.slot = true
  · rw [closeFrame_of_key h]
    show { (s.moveToKey op.slot).tku with op := none } = _
    rw [(moveToKey_frame s op.slot).tku (by decide)]
  · rw [closeFrame_of_other (Bool.eq_false_iff.mpr h)]
    show { (s.moveToLast op.slot).tku with op := none } = _
    rw [(moveToLast_frame s op.slot).tku (by decide)]

/-- 01 R12: every slot other than the frame's stays, but a LAST one becomes FREE. -/
theorem slotState_closeFrame_of_ne (s : State) {op : TrackOp} {j : Fin 8} (ne : j ≠ op.slot) :
    (s.closeFrame op).slotState j = if s.slotState j = .last then .free else s.slotState j := by
  have others (st : SlotState) : ((freeOtherLast s op.slot).setSlotState op.slot st).slotState j
      = if s.slotState j = .last then .free else s.slotState j := by
    rw [slotState_setSlotState, if_neg ne, slotState_freeOtherLast]
    simp only [ne, ne_eq, not_false_eq_true, and_true]
  by_cases h : s.heldAsKey op.slot = true
  · rw [closeFrame_of_key h]; exact others .key
  · rw [closeFrame_of_other (Bool.eq_false_iff.mpr h)]; exact others .last

theorem settle_lastResult (s : State) : s.settle.swc.lastResult = s.swc.lastResult := by
  rcases settle_swc s with h | ⟨_, h⟩ | ⟨_, _, h⟩ <;> rw [h]

/-- 05 R100: the end of a command frees no slot in a storing state, nor with a key in the table. -/
theorem settle_igu_of_storing_or_keys {s : State} (h : s.storing = true ∨ s.swc.keys ≠ []) : s.settle.igu = s.igu := by
  rcases h with h | h
  · rw [settle_eq (storing_not_finishing h)]
  · exact settle_igu h

/-! ### The selection is complete -/

/-- 02 R22: the state once the front selection has replaced its set. -/
def withSet (s : State) (sel : Selection) : State := s.replaceSet sel.kind (s.selectionView sel).run.set

theorem exec_selectionComplete_of_made {s : State} {op : TrackOp} {sel : Selection} {rest : List Selection}
    (hop : s.tku.op = some op) (hsel : op.selections = sel :: rest) (decided : op.stage ≠ .searching)
    (reads : nextRead (s.selectionView sel).run.words sel.rd = none) :
    exec .selectionComplete s
      = if rest = [] ∧ op.stage = .finished then .next ((withSet s sel).closeFrame { op with selections := rest }).settle
        else .next ({ withSet s sel with tku.op := some { op with selections := rest } } : State).settle := by
  show execSelectionComplete s = _
  unfold execSelectionComplete
  simp only [hop, hsel]
  exact if_pos ⟨decided, reads⟩

/-- What a state's tracking unit has in common with that of the state in which the set is replaced, the operation apart. -/
theorem sets_of_withSet {s t : State} {sel : Selection} {o : Option TrackOp} (h : t.tku = { (withSet s sel).tku with op := o }) :
    (sel.kind = .closure → t.tku.closureSet = (s.selectionView sel).run.set ∧ t.tku.mainSet = s.tku.mainSet)
      ∧ (sel.kind ≠ .closure → t.tku.mainSet = (s.selectionView sel).run.set ∧ t.tku.closureSet = s.tku.closureSet)
      ∧ t.tku.gyro = s.tku.gyro ∧ t.tku.lock = s.tku.lock ∧ t.tku.held = s.tku.held := by
  unfold withSet at h
  by_cases k : sel.kind = .closure
  · rw [k, replaceSet_of_closure] at h
    rw [h]
    exact ⟨fun _ => ⟨rfl, rfl⟩, fun ne => absurd k ne, rfl, rfl, rfl⟩
  · rw [replaceSet_of_main k] at h
    rw [h]
    exact ⟨fun e => absurd e k, fun _ => ⟨rfl, rfl⟩, rfl, rfl, rfl⟩

/-- Settles O27: the set is replaced; with the last selection of a decided frame the operation closes, else it goes on. -/
theorem selectionReplacesSet : Obligations.SelectionReplacesSet := by
  intro s op sel rest hop hsel decided reads
  have run := exec_selectionComplete_of_made hop hsel decided reads
  have set := replaceSet_eq s sel.kind (s.selectionView sel).run.set
  have swc : (withSet s sel).swc = s.swc := by unfold withSet; rw [set]
  have igu : (withSet s sel).igu = s.igu := by unfold withSet; rw [set]
  by_cases last : rest = [] ∧ op.stage = .finished
  · rw [if_pos last] at run
    generalize hu : (withSet s sel).closeFrame { op with selections := rest } = u at run
    have tku : u.settle.tku = { (withSet s sel).tku with op := none } := by rw [settle_tku, ← hu, closeFrame_tku]
    obtain ⟨closure, main, gyro, lock, held⟩ := sets_of_withSet tku
    have keys : u.swc.keys = s.swc.keys := by
      rw [← hu, closeFrame_swc, swc]; split <;> rfl
    have storing : u.storing = s.storing := by
      unfold State.storing; rw [← hu, closeFrame_swc, swc]; split <;> rfl
    have held_iff : (withSet s sel).heldAsKey op.slot = true ↔ _ := (heldAsKey_iff _ _).trans (by rw [swc])
    refine ⟨_, run, closure, main, iff_of_true (by rw [tku]) last, gyro, lock, held, by rw [settle_keys, keys],
      fun more => absurd last more, fun _ _ stays => ?_⟩
    have slots (j : Fin 8) : u.settle.slotState j = u.slotState j := by
      unfold State.slotState
      rw [settle_igu_of_storing_or_keys (by rw [storing, keys]; exact stays)]
    have moved := slotState_closeFrame (withSet s sel) { op with selections := rest }
    have result := congrArg Swc.lastResult (closeFrame_swc (withSet s sel) { op with selections := rest })
    rw [hu] at moved result
    refine ⟨fun key => ?_, fun notReference notKey => ?_, fun j ne => ?_⟩
    · have key := held_iff.mpr key
      exact ⟨by rw [slots, moved, if_pos key], by rw [settle_lastResult, result, if_pos key, swc]⟩
    · have other : ¬ (withSet s sel).heldAsKey op.slot = true := fun k =>
        (held_iff.mp k).elim notReference (fun ⟨k, hk, e⟩ => notKey k hk e)
      exact ⟨by rw [slots, moved, if_neg other], by rw [settle_lastResult, result, if_neg other]⟩
    · rw [slots, ← hu, slotState_closeFrame_of_ne (op := { op with selections := rest }) _ ne]
      unfold State.slotState
      rw [igu]
  · rw [if_neg last] at run
    generalize hu : ({ withSet s sel with tku.op := some { op with selections := rest } } : State) = u at run
    have goesOn : u.tku.op = some { op with selections := rest } := by rw [← hu]
    have settled := settle_of_op goesOn
    have tku : u.settle.tku = { (withSet s sel).tku with op := some { op with selections := rest } } := by
      rw [settle_tku, ← hu]
    obtain ⟨closure, main, gyro, lock, held⟩ := sets_of_withSet tku
    have sameIgu : u.settle.igu = s.igu := by rw [settled, ← hu]; exact igu
    have sameSwc : u.settle.swc = s.swc := by rw [settled, ← hu]; exact swc
    refine ⟨_, run, closure, main, iff_of_false (by rw [tku]; exact Option.some_ne_none _) last, gyro, lock, held,
      by rw [sameSwc], fun _ => ⟨sameIgu, sameSwc, by rw [tku]⟩, fun e f => absurd ⟨e, f⟩ last⟩

end Sys2Proof.Proofs
end

section
/-! What SESSION.ABORT and SESSION.RELEASE clear and keep (05 R102, R103, 09 R160): the settled O54. -/
namespace Sys2Proof.Proofs
open Sys2Proof.Machine

/-! ### The transfer cut off (09 R160) -/

theorem cutTransfer_eq (s : State) : s.cutTransfer = { s with pins := s.cutTransfer.pins, opu := s.cutTransfer.opu } := by
  unfold State.cutTransfer
  cases s.opu.state <;> rfl

theorem cutTransfer_of_sending {s : State} (h : s.opu.state = .sending) :
    s.cutTransfer.opu.state = .cutting ∧ s.cutTransfer.opu.number = s.opu.number
      ∧ s.cutTransfer.pins = { s.pins with sopLv := false, sopLine := s.pins.sopLine.take s.pins.sopBeat }
      ∧ s.cutTransfer.opu.xfer = s.opu.xfer.map (fun x => { s.refreshed x with rd := {}, trailer := false }) := by
  unfold State.cutTransfer
  rw [h]
  exact ⟨rfl, rfl, rfl, rfl⟩

theorem cutTransfer_of_cutting {s : State} (h : s.opu.state = .cutting) : s.cutTransfer = s := by
  unfold State.cutTransfer; rw [h]

theorem cutTransfer_of_rest {s : State} (h : s.opu.state = .idle ∨ s.opu.state = .halted) :
    s.cutTransfer = s.clearTransfer := by
  unfold State.cutTransfer
  rcases h with h | h <;> rw [h]

theorem refreshed_of_strip {s : State} {x : Transfer} {r : Strip} (h : s.stripAt x.strip = some r) :
    s.refreshed x = { x with holes := r.holes, flags := s.stripFlags r } := by
  unfold State.refreshed; rw [h]

/-! ### A request that ends the session -/

/-- The state after a session has ended by request: the SESSION notice of the change to IDLE is queued and the request answered OK. -/
def sessionEnded (u : State) (before : SessionState) (rest : List Request) (type tag : Byte) : State :=
  (u.notifySession before .idle).answeredOnly rest type tag (.result .ok)

theorem notifySession_answered {u : State} {type tag rt : Byte} {body : List Byte} {rest : List Request}
    (h : u.lku.requests = { type := type, tag := tag, body := body } :: rest) (hr : replyType type = rt)
    (before : SessionState) :
    (u.notifySession before .idle).answerCode .ok = sessionEnded u before rest rt tag :=
  answer_of_requests ((notify_requests u _).1.trans h) _ hr

/-- Outside the link unit the end is the state of which it is noticed. -/
theorem sessionEnded_eq (u : State) (before : SessionState) (rest : List Request) (type tag : Byte) :
    sessionEnded u before rest type tag = { u with lku := (sessionEnded u before rest type tag).lku } := by
  unfold sessionEnded State.answeredOnly State.notifySession
  rw [notify_eq]

theorem sessionEnded_conds (u : State) (before : SessionState) (rest : List Request) (type tag : Byte) :
    (sessionEnded u before rest type tag).lku.conds = u.lku.conds := by
  obtain ⟨_, _, _, conds, _⟩ := notify_requests u (.session u.swc.id before .idle none u.swc.decided u.swc.keys.length u.igu.nextStored)
  exact conds

theorem sessionEnded_noticed (u : State) (before : SessionState) (rest : List Request) (type tag : Byte) :
    u.Noticed (sessionEnded u before rest type tag)
      (.session u.swc.id before .idle none u.swc.decided u.swc.keys.length u.igu.nextStored) :=
  (notify_noticed u _).kept ⟨⟨[], (List.append_nil _).symm⟩, id⟩

theorem exec_sessionAbort_of_executes {s : State} {tag : Byte} {rest : List Request} (h : s.Executes 0x14#8 tag [] rest) :
    exec .sessionAbort s = .next s.sessionAbort :=
  execute_of_executes h (fun body => s.withoutFields body s.sessionAbort)

theorem exec_sessionRelease_of_executes {s : State} {tag : Byte} {rest : List Request}
    (h : s.Executes 0x15#8 tag [] rest) : exec .sessionRelease s = .next s.sessionRelease :=
  execute_of_executes h (fun body => s.withoutFields body s.sessionRelease)

/-- 05 R102: an abort outside IDLE is the abandoned work, noticed and answered. -/
theorem sessionAbort_of_work {s : State} {tag : Byte} {rest : List Request} (h : s.Executes 0x14#8 tag [] rest)
    (work : s.swc.state ≠ .idle) : s.sessionAbort = sessionEnded s.abandon s.swc.state rest 0x94#8 tag := by
  have requests : s.abandon.lku.requests = _ := (congrArg (·.lku.requests) (cutTransfer_eq s)).trans h.2
  unfold State.sessionAbort
  rw [if_neg work]
  exact notifySession_answered requests (by decide) _

theorem sessionRelease_of_done {s : State} {tag : Byte} {rest : List Request} (h : s.Executes 0x15#8 tag [] rest)
    (done : s.swc.state = .done) : s.sessionRelease = sessionEnded s.release .done rest 0x95#8 tag := by
  unfold State.sessionRelease
  rw [if_pos done]
  exact notifySession_answered (u := s.release) h.2 (by decide) _

/-- What an abandoned session's state is, block by block. -/
theorem abandon_eq (s : State) : s.abandon = { s with
    pins := s.cutTransfer.pins, opu := s.cutTransfer.opu
    igu := Igu.reset, tku := Tku.reset
    swc := { Swc.reset with id := s.swc.id, config := s.swc.config }
    smu := Smu.reset, blu := Blu.reset, cvm := Cvm.reset
    grant := s.grant.map (fun g => { g with live := false }) } := by
  unfold State.abandon State.orphanAccess
  rw [cutTransfer_eq]

/-- Settles O54: the end of the session is the abandoned or the released state, with its notice and its answer. -/
theorem abortAndRelease : Obligations.AbortAndRelease := by
  refine ⟨fun s tag rest h => ⟨fun idle => ?_, fun work => ?_⟩, fun s tag rest h => ⟨fun busy => ?_, fun done => ?_⟩⟩
  · rw [exec_sessionAbort_of_executes h]
    unfold State.sessionAbort
    rw [if_pos idle]
    exact congrArg Host.Outcome.next (answer_of_requests h.2 _ (by decide))
  · have run := exec_sessionAbort_of_executes h
    rw [sessionAbort_of_work h work] at run
    have lku : s.abandon.lku = s.lku := by rw [abandon_eq]
    have conds := sessionEnded_conds s.abandon s.swc.state rest 0x94#8 tag
    have noticed := (sessionEnded_noticed s.abandon s.swc.state rest 0x94#8 tag).of_lku (s' := s) lku.symm
    have ended := sessionEnded_eq s.abandon s.swc.state rest 0x94#8 tag
    generalize sessionEnded s.abandon s.swc.state rest 0x94#8 tag = t at run conds noticed ended
    rw [abandon_eq] at ended noticed
    have pins : t.pins = s.cutTransfer.pins := by rw [ended]
    have opu : t.opu = s.cutTransfer.opu := by rw [ended]
    refine ⟨t, run, by rw [ended], by rw [ended], by rw [ended], by rw [ended], by rw [ended], by rw [ended],
      by rw [ended], by rw [ended], by rw [ended], by rw [ended], ?_, ?_, ?_, by rw [conds, lku], noticed⟩
    · intro sending
      obtain ⟨state, number, level, xfer⟩ := cutTransfer_of_sending sending
      rw [pins, opu]
      refine ⟨state, number, level, fun x r hx hr => ?_⟩
      rw [xfer, hx, Option.map_some, refreshed_of_strip hr]
    · intro cutting
      rw [pins, opu, cutTransfer_of_cutting cutting]
      exact ⟨rfl, rfl⟩
    · intro resting
      rw [pins, opu, cutTransfer_of_rest resting]
      exact ⟨rfl, rfl⟩
  · rw [exec_sessionRelease_of_executes h]
    unfold State.sessionRelease
    rw [if_neg busy]
    exact congrArg Host.Outcome.next (answer_of_requests h.2 _ (by decide))
  · have run := exec_sessionRelease_of_executes h
    rw [sessionRelease_of_done h done] at run
    have noticed := (sessionEnded_noticed s.release .done rest 0x95#8 tag).of_lku (s' := s) rfl
    have ended := sessionEnded_eq s.release .done rest 0x95#8 tag
    generalize sessionEnded s.release .done rest 0x95#8 tag = t at run noticed ended
    exact ⟨t, run, by rw [ended]; rfl, by rw [ended]; rfl, by rw [ended]; rfl, by rw [ended]; rfl, by rw [ended]; rfl,
      by rw [ended]; rfl, by rw [ended]; rfl, by rw [ended]; rfl, by rw [ended]; rfl, noticed⟩

end Sys2Proof.Proofs
end

section
/-! Picture lines and the writes that store them (01 R5, 10 R163, R167): the settled O18. -/
namespace Sys2Proof.Proofs
open Sys2Proof.Machine

/-! ### A row in pieces of eight bytes -/

/-- A byte of a row stands in the piece of its place. -/
theorem chunks8_covers (n : Nat) (l : List Byte) (fits : l.length ≤ n) {j : Nat} {v : Byte} (hj : l[j]? = some v) :
    ∃ p, (chunks8 n l)[j / 8]? = some p ∧ p[j % 8]? = some v := by
  induction n generalizing l j with
  | zero =>
    obtain ⟨inside, _⟩ := List.getElem?_eq_some_iff.mp hj
    omega
  | succ n ih =>
    cases l with
    | nil => cases hj
    | cons x xs =>
      show ∃ p, ((x :: xs).take 8 :: chunks8 n ((x :: xs).drop 8))[j / 8]? = some p ∧ p[j % 8]? = some v
      by_cases first : j < 8
      · refine ⟨(x :: xs).take 8, by rw [Nat.div_eq_of_lt first]; rfl, ?_⟩
        rw [Nat.mod_eq_of_lt first, List.getElem?_take, if_pos first]
        exact hj
      · obtain ⟨i, rfl⟩ : ∃ i, j = i + 8 := ⟨j - 8, by omega⟩
        rw [Nat.add_div_right i (by decide), Nat.add_mod_right, List.getElem?_cons_succ]
        refine ih _ ?_ (by rw [List.getElem?_drop, Nat.add_comm]; exact hj)
        rw [List.length_drop]
        simp only [List.length_cons] at fits ⊢
        omega

theorem length_of_mem_chunks8 {n : Nat} {l p : List Byte} (h : p ∈ chunks8 n l) : p.length ≤ 8 := by
  induction n generalizing l with
  | zero => cases h
  | succ n ih =>
    cases l with
    | nil => cases h
    | cons x xs =>
      rcases List.mem_cons.mp h with rfl | h
      · exact List.length_take_le 8 _
      · exact ih h

/-! ### The writes of a row (10 R167) -/

/-- The write of piece `k` of a row that lies from address `a` on. -/
def rowWord (a k : Nat) (p : List Byte) : WordWrite :=
  wholeWord (a + 8 * k) (p ++ ((List.range 8).drop p.length).map (fun j => Config.openByte (a + 8 * k + j)))

theorem mem_zip_range_iff {α : Type} (l : List α) (k : Nat) (p : α) :
    (k, p) ∈ (List.range l.length).zip l ↔ l[k]? = some p := by
  rw [List.mem_iff_getElem?]
  constructor
  · rintro ⟨i, hi⟩
    obtain ⟨hk, hp⟩ := List.getElem?_zip_eq_some.mp hi
    obtain ⟨_, rfl⟩ := List.getElem?_eq_some_iff.mp hk
    rwa [List.getElem_range]
  · intro hp
    obtain ⟨inside, _⟩ := List.getElem?_eq_some_iff.mp hp
    exact ⟨k, List.getElem?_zip_eq_some.mpr ⟨List.getElem?_range inside, hp⟩⟩

theorem mem_rowWrites_iff (a : Nat) (row : List Byte) (w : WordWrite) :
    w ∈ rowWrites a row ↔ ∃ k p, (chunks8 row.length row)[k]? = some p ∧ w = rowWord a k p := by
  unfold rowWrites
  rw [List.mem_map]
  constructor
  · rintro ⟨⟨k, p⟩, mem, rfl⟩
    exact ⟨k, p, (mem_zip_range_iff _ k p).mp mem, rfl⟩
  · rintro ⟨k, p, hp, rfl⟩
    exact ⟨(k, p), (mem_zip_range_iff _ k p).mpr hp, rfl⟩

/-- 10 R167: every write of a row is of a whole word. -/
theorem rowWrites_whole {a : Nat} {row : List Byte} {w : WordWrite} (h : w ∈ rowWrites a row) :
    w.bytes.length = 8 ∧ w.whole = true := by
  obtain ⟨k, p, hp, rfl⟩ := (mem_rowWrites_iff a row w).mp h
  have short := length_of_mem_chunks8 (List.mem_of_getElem? hp)
  unfold rowWord wholeWord WordWrite.whole
  constructor
  · simp only [List.length_map, List.length_append, List.length_drop, List.length_range]
    omega
  · simp only [List.all_map, List.all_eq_true, Function.comp_apply, Option.isSome_some, implies_true]

/-- Every byte of a row lies in a write of its place. -/
theorem rowWrites_covers (a : Nat) {row : List Byte} {j : Nat} {v : Byte} (hj : row[j]? = some v) :
    ∃ w ∈ rowWrites a row, ∃ k, w.addr + k = a + j ∧ w.bytes[k]? = some (some v) := by
  obtain ⟨p, piece, byte⟩ := chunks8_covers row.length row (Nat.le_refl _) hj
  obtain ⟨inside, _⟩ := List.getElem?_eq_some_iff.mp byte
  refine ⟨rowWord a (j / 8) p, (mem_rowWrites_iff _ _ _).mpr ⟨_, p, piece, rfl⟩, j % 8, ?_, ?_⟩
  · show a + 8 * (j / 8) + j % 8 = a + j
    rw [Nat.add_assoc, Nat.div_add_mod]
  · show (List.map some (p ++ _))[j % 8]? = _
    rw [List.getElem?_map, List.getElem?_append_left inside, byte]; rfl

theorem rowWrites_addr {a : Nat} {row : List Byte} {w : WordWrite} (h : w ∈ rowWrites a row) :
    ∃ k, w.addr = a + 8 * k := by
  obtain ⟨k, p, _, rfl⟩ := (mem_rowWrites_iff a row w).mp h
  exact ⟨k, rfl⟩

/-! ### The chroma bytes of a line (01 1.1) -/

/-- The high byte of a beat: its chroma sample. -/
def highByte (b : Beat) : Byte := (b >>> (8 : Nat)).setWidth 8

/-- The first beat is an even column, and behind it the parities change places. -/
theorem chromaBytes_cons {parity : Nat} (h : parity < 2) (b : Beat) (rest : List Beat) :
    chromaBytes parity (b :: rest) = (if parity = 0 then [highByte b] else []) ++ chromaBytes (1 - parity) rest := by
  have swap (n : Nat) : (n + 1) % 2 = parity ↔ n % 2 = 1 - parity := by omega
  unfold chromaBytes
  rw [List.length_cons, List.range_succ_eq_map, List.zip_cons_cons, List.zip_map_left, List.filterMap_cons,
    List.filterMap_map]
  have tail : ((fun e : Nat × Beat => if e.1 % 2 = parity then some (highByte e.2) else none) ∘ Prod.map Nat.succ id)
      = fun e : Nat × Beat => if e.1 % 2 = 1 - parity then some (highByte e.2) else none := by
    funext e
    simp only [Function.comp_apply, Prod.map_fst, Prod.map_snd, id_eq, Nat.succ_eq_add_one, swap]
  unfold highByte at *
  rw [tail]
  by_cases even : parity = 0
  · subst even; rfl
  · rw [if_neg even, if_neg (show ¬ 0 % 2 = parity by omega)]; rfl

/-- 01 1.1: the high byte of column c is the sample c / 2 of the chroma row of its parity. -/
theorem chromaBytes_get {beats : List Beat} {c : Nat} {b : Beat} (h : beats[c]? = some b) :
    (chromaBytes (c % 2) beats)[c / 2]? = some (highByte b) := by
  induction beats generalizing c with
  | nil => cases h
  | cons a rest ih =>
    rw [chromaBytes_cons (Nat.mod_lt c (by decide))]
    cases c with
    | zero => obtain rfl := Option.some.inj h; rfl
    | succ c =>
      have here := ih h
      rcases Nat.mod_two_eq_zero_or_one c with even | odd
      · rw [show (c + 1) % 2 = 1 by omega, show (c + 1) / 2 = c / 2 by omega]
        rwa [even] at here
      · rw [show (c + 1) % 2 = 0 by omega, show (c + 1) / 2 = c / 2 + 1 by omega]
        rwa [odd] at here

/-! ### The writes of a line (01 R5) -/

theorem rawLumaAddr_zero_add (i : Fin 8) (x y : Nat) : rawLumaAddr i 0 y + x = rawLumaAddr i x y := by
  unfold rawLumaAddr; rw [Nat.add_zero]
theorem rawCbAddr_zero_add (i : Fin 8) (x y : Nat) : rawCbAddr i 0 y + x = rawCbAddr i x y := by
  unfold rawCbAddr; rw [Nat.add_zero]
theorem rawCrAddr_zero_add (i : Fin 8) (x y : Nat) : rawCrAddr i 0 y + x = rawCrAddr i x y := by
  unfold rawCrAddr; rw [Nat.add_zero]

theorem mem_lineWrites_iff (i : Fin 8) (wf r : Nat) (beats : List Beat) (w : WordWrite) :
    w ∈ lineWrites i wf r beats
      ↔ w ∈ rowWrites (rawLumaAddr i 0 r) ((beats.take wf).map (fun b => b.setWidth 8))
        ∨ r % 2 = 0 ∧ (w ∈ rowWrites (rawCbAddr i 0 (r / 2)) (chromaBytes 0 (beats.take wf))
          ∨ w ∈ rowWrites (rawCrAddr i 0 (r / 2)) (chromaBytes 1 (beats.take wf))) := by
  unfold lineWrites
  dsimp only
  by_cases even : r % 2 = 0
  · rw [if_pos even, List.mem_append, List.mem_append, and_iff_right even]
  · rw [if_neg even, List.append_nil, or_iff_left (fun k => even k.1)]

theorem used_get {beats : List Beat} {wf c : Nat} {b : Beat} (inside : c < wf) (h : beats[c]? = some b) :
    (beats.take wf)[c]? = some b := by rw [List.getElem?_take, if_pos inside, h]

/-- 01 R5: the low byte of a stored beat lies in a write of its place in the raw luma row. -/
theorem lineWrites_luma (i : Fin 8) (wf r : Nat) {beats : List Beat} {c : Nat} {b : Beat} (inside : c < wf)
    (h : beats[c]? = some b) : ∃ w ∈ lineWrites i wf r beats, ∃ k, w.addr + k = rawLumaAddr i c r
      ∧ w.bytes[k]? = some (some (b.setWidth 8)) := by
  have row : ((beats.take wf).map (fun b => b.setWidth 8))[c]? = some (b.setWidth 8 : Byte) := by
    rw [List.getElem?_map, used_get inside h]; rfl
  obtain ⟨w, mem, k, addr, byte⟩ := rowWrites_covers (rawLumaAddr i 0 r) row
  exact ⟨w, (mem_lineWrites_iff _ _ _ _ _).mpr (.inl mem), k, addr.trans (rawLumaAddr_zero_add i c r), byte⟩

/-- 01 R5: of an even line the high byte lies in a write of its place in the raw Cb or Cr row. -/
theorem lineWrites_chroma (i : Fin 8) (wf : Nat) {r : Nat} (even : r % 2 = 0) {beats : List Beat} {c : Nat} {b : Beat}
    (inside : c < wf) (h : beats[c]? = some b) : ∃ w ∈ lineWrites i wf r beats, ∃ k,
      w.addr + k = (if c % 2 = 0 then rawCbAddr i (c / 2) (r / 2) else rawCrAddr i (c / 2) (r / 2))
        ∧ w.bytes[k]? = some (some (highByte b)) := by
  have row := chromaBytes_get (used_get inside h)
  rcases Nat.mod_two_eq_zero_or_one c with cb | cr
  · rw [cb] at row ⊢
    obtain ⟨w, mem, k, addr, byte⟩ := rowWrites_covers (rawCbAddr i 0 (r / 2)) row
    exact ⟨w, (mem_lineWrites_iff _ _ _ _ _).mpr (.inr ⟨even, .inl mem⟩), k, addr.trans (rawCbAddr_zero_add i _ _), byte⟩
  · rw [cr] at row ⊢
    obtain ⟨w, mem, k, addr, byte⟩ := rowWrites_covers (rawCrAddr i 0 (r / 2)) row
    exact ⟨w, (mem_lineWrites_iff _ _ _ _ _).mpr (.inr ⟨even, .inr mem⟩), k, addr.trans (rawCrAddr_zero_add i _ _), byte⟩

theorem lineWrites_whole {i : Fin 8} {wf r : Nat} {beats : List Beat} {w : WordWrite} (h : w ∈ lineWrites i wf r beats) :
    w.bytes.length = 8 ∧ w.whole = true := by
  rcases (mem_lineWrites_iff _ _ _ _ _).mp h with luma | ⟨_, cb | cr⟩
  · exact rowWrites_whole luma
  · exact rowWrites_whole cb
  · exact rowWrites_whole cr

/-- 01 R5: an odd line is written to the luma row alone. -/
theorem lineWrites_of_odd {i : Fin 8} {wf r : Nat} (odd : r % 2 = 1) {beats : List Beat} {w : WordWrite}
    (h : w ∈ lineWrites i wf r beats) : ∃ k : Nat, w.addr = rawLumaAddr i (8 * k) r := by
  rcases (mem_lineWrites_iff _ _ _ _ _).mp h with luma | ⟨even, _⟩
  · obtain ⟨k, addr⟩ := rowWrites_addr luma
    exact ⟨k, addr.trans (rawLumaAddr_zero_add i _ r)⟩
  · omega

/-! ### A picture line -/

theorem exec_pictureLine_of_none {s : State} (h : s.firstIn .filling = none) (tag : Beat) (beats : List Beat) :
    exec (.pictureLine true tag beats) s = .next (atLevel true s) := by
  show execPictureLine true tag beats s = _
  unfold execPictureLine
  dsimp only
  rw [if_neg (by decide)]
  split
  · rfl
  · next i some => exact absurd (some.symm.trans h) (Option.some_ne_none i)

theorem exec_pictureLine_of_filling {s : State} {i : Fin 8} (h : s.firstIn .filling = some i) (tag : Beat)
    (beats : List Beat) : exec (.pictureLine true tag beats) s
      = if tag = pictureTag ∧ 2 ≤ s.igu.lineBuffers.length then .next (atLevel true s).abortFilling.settle
        else .next ((atLevel true s).takeLine i tag beats).settle := by
  show execPictureLine true tag beats s = _
  unfold execPictureLine
  dsimp only
  rw [if_neg (by decide)]
  split
  · next none => exact absurd (h.symm.trans none) (Option.some_ne_none i)
  · next j some => obtain rfl := Option.some.inj (h.symm.trans some); rfl

/-- 01 R5: what a line of the FILLING frame of slot i changes. -/
theorem takeLine_eq (s : State) (i : Fin 8) (tag : Beat) (beats : List Beat) :
    s.takeLine i tag beats = { s with igu := { s.igu with
      linesCounted := s.igu.linesCounted + 1
      misShaped := s.igu.misShaped || decide (tag ≠ pictureTag ∨ beats.length ≠ s.cfg.wf)
      lineBuffers :=
        if tag = pictureTag ∧ s.igu.linesCounted < s.cfg.hf then
          addLine i (lineWrites i s.cfg.wf s.igu.linesCounted beats) s.igu.lineBuffers
        else s.igu.lineBuffers } } := by
  unfold State.takeLine
  simp only [decide_eq_true_eq]

/-- 01 R5: a line that does not overrun is taken. -/
theorem exec_pictureLine_takes {s : State} (hs : s.storing = true) {i : Fin 8} (hi : s.firstIn .filling = some i)
    {tag : Beat} (room : tag ≠ pictureTag ∨ s.igu.lineBuffers.length < 2) (beats : List Beat) :
    ∃ t, exec (.pictureLine true tag beats) s = .next t
      ∧ t = { (atLevel true s).takeLine i tag beats with grant := t.grant } := by
  rw [exec_pictureLine_of_filling hi, if_neg]
  · exact next_settled hs
  · rintro ⟨picture, full⟩
    exact room.elim (fun ne => ne picture) (fun lt => by omega)

/-- Settles O18: a line is ignored, overruns or is taken; where its samples lie is the coverage of its rows' writes. -/
theorem pictureLineStores : Obligations.PictureLineStores := by
  refine ⟨fun s beats i hs hi room row wide => ?_, fun s tag beats i hs hi room => ?_,
    fun i wf r beats => ⟨fun w hw => lineWrites_whole hw, fun c b inside hb => lineWrites_luma i wf r inside hb⟩,
    fun i wf r beats => ⟨fun even c b inside hb => lineWrites_chroma i wf even inside hb,
      fun odd w hw => lineWrites_of_odd odd hw⟩,
    fun s beats i r hs hi hr full => ?_, fun s tag beats => rfl, fun s tag beats none => exec_pictureLine_of_none none _ _⟩
  · obtain ⟨t, run, ht⟩ := exec_pictureLine_takes hs hi (.inr room) beats
    have shaped : decide (pictureTag ≠ pictureTag ∨ beats.length ≠ s.cfg.wf) = false := by simp [wide]
    rw [takeLine_eq, show (atLevel true s).cfg = s.cfg from rfl, shaped, Bool.or_false,
      if_pos ⟨rfl, show (atLevel true s).igu.linesCounted < s.cfg.hf from row⟩] at ht
    exact ⟨t, run, ht⟩
  · obtain ⟨t, run, ht⟩ := exec_pictureLine_takes hs hi room beats
    rw [takeLine_eq] at ht
    exact ⟨t, run, ht⟩
  · have run := exec_pictureLine_of_filling hi pictureTag beats
    rw [if_pos ⟨rfl, full⟩, abortFilling_eq (s := atLevel true s) hi hr] at run
    obtain ⟨t, e, ht⟩ := next_settled
      (u := { atLevel true s with igu := _, tku.gyro := _, lku.flags.frameDropped := true, grant := _ }) hs
    refine ⟨t, run.trans e, ?_⟩
    rw [ht]
    exact ⟨rfl, rfl, rfl, rfl, rfl, rfl⟩

end Sys2Proof.Proofs
end

section
/-! What the parts of SWC's decision on a frame leave alone (04 R66): step 5 and the end of a sweep with respect to the tracking unit, the key table and the slots in tracking, and the end of the decision itself. -/
namespace Sys2Proof.Proofs
open Sys2Proof.Machine

/-! ### The sweep is judged (05 R95 to R98) -/

/-- From `s` to `v` a decision has judged the sweep: pace, stall, high-water mark, window and end of the sweep may be others, a reference may be given up, and frames not yet tracked may be discarded; notices are only added. -/
structure SweepJudged (s v : State) : Prop where
  notices : s.NoticesKept v
  tku : v.tku = s.tku
  smu : v.smu = s.smu
  swc : v.swc = { s.swc with
    state := v.swc.state, endCause := v.swc.endCause, cal := v.swc.cal, highWater := v.swc.highWater
    stallCount := v.swc.stallCount, pace := v.swc.pace }
  held : ∀ i, v.heldAsKey i = true → s.heldAsKey i = true
  tracking : ∀ i, s.slotState i = .tracking → v.slotState i = .tracking

theorem SweepJudged.refl (s : State) : SweepJudged s s := ⟨.refl s, rfl, rfl, rfl, fun _ => id, fun _ => id⟩

theorem SweepJudged.trans {s t u : State} (h : SweepJudged s t) (k : SweepJudged t u) : SweepJudged s u where
  notices := h.notices.trans k.notices
  tku := k.tku.trans h.tku
  smu := k.smu.trans h.smu
  swc := by
    refine k.swc.trans ?_
    rw [h.swc]
  held := fun i => h.held i ∘ k.held i
  tracking := fun i => k.tracking i ∘ h.tracking i

theorem SweepJudged.keys {s v : State} (h : SweepJudged s v) : v.swc.keys = s.swc.keys := by rw [h.swc]

theorem heldAsKey_congr {s t : State} (keys : t.swc.keys = s.swc.keys) (cal : t.swc.cal.provisional = s.swc.cal.provisional)
    (i : Fin 8) : t.heldAsKey i = s.heldAsKey i := by unfold State.heldAsKey; rw [keys, cal]

/-- Of SWC only the pace, the stall count and the high-water mark change, and the slots stay. -/
theorem SweepJudged.of_counts {s v : State} (lku : v.lku = s.lku) (tku : v.tku = s.tku) (smu : v.smu = s.smu)
    (igu : v.igu = s.igu)
    (swc : v.swc = { s.swc with highWater := v.swc.highWater, stallCount := v.swc.stallCount, pace := v.swc.pace }) :
    SweepJudged s v where
  notices := .of_lku lku
  tku := tku
  smu := smu
  swc := by rw [swc]
  held := fun i h => by
    rwa [heldAsKey_congr (s := s) (by rw [swc]) (by rw [swc])] at h
  tracking := fun i h => by
    unfold State.slotState at *
    rwa [igu]

theorem enterState_judged (s : State) (a : SessionState) : SweepJudged s (s.enterState a) where
  notices := enterState_notices s a
  tku := (enterState_frame s a).tku (by decide)
  smu := (enterState_frame s a).smu (by decide)
  swc := by rw [enterState_swc]
  held := fun i h => by rwa [heldAsKey_congr (s := s) (by rw [enterState_swc]) (by rw [enterState_swc])] at h
  tracking := fun i h => by
    unfold State.slotState at *
    rwa [enterState_igu]

/-! ### The end of a sweep (05 R98, R99) -/

/-- 01 R13: the discard of a sweep's end takes no slot in tracking. -/
theorem discardFrames_tracking {s : State} {i : Fin 8} (h : s.slotState i = .tracking) :
    s.discardFrames.slotState i = .tracking := by
  have other {u : State} {st : SlotState} (hu : u.slotState i = .tracking) (ne : .tracking ≠ st) : i ∉ u.slotsIn st :=
    fun k => ne (hu.symm.trans ((mem_slotsIn_iff u st i).mp k))
  have withdrawn : ((s.slotsIn .filling ++ s.slotsIn .filledWait).foldl
      (fun t j => (t.withdrawLines j).freeSlot j) s).slotState i = .tracking := by
    unfold State.slotState
    rw [withdraw_get, if_neg]
    · exact h
    · exact fun k => (List.mem_append.mp k).elim (other h (by decide)) (other h (by decide))
  unfold State.discardFrames
  dsimp only
  unfold State.slotState
  rw [freeSlots_get, if_neg (other withdrawn (by decide))]
  exact withdrawn

/-- 05 R99, 02 R23: a reference that is still TRACKING keeps its slot. -/
theorem dropProvisional_tracking {s : State} {i : Fin 8} (h : s.slotState i = .tracking) :
    s.dropProvisional.slotState i = .tracking := by
  unfold State.dropProvisional
  split
  · next j _ _ =>
    show (s.freeReference j).slotState i = .tracking
    unfold State.freeReference
    split
    · exact h
    · next ne =>
      rw [slotState_freeSlot, if_neg]
      · exact h
      · rintro rfl; exact ne h
  · exact h

theorem endSweep_tracking {s : State} {i : Fin 8} (h : s.slotState i = .tracking) (c : EndCause) :
    (s.endSweep c).slotState i = .tracking := by
  unfold State.endSweep
  split
  · refine dropProvisional_tracking (discardFrames_tracking ?_)
    unfold State.slotState
    rw [enterState_igu]
    exact h
  · exact h

theorem endSweep_judged (s : State) (c : EndCause) : SweepJudged s (s.endSweep c) := by
  by_cases h : s.storing = true
  · have f := endSweep_frame s c
    have swc : (s.endSweep c).swc = { s.swc with
        state := (s.endSweep c).swc.state, endCause := (s.endSweep c).swc.endCause, cal := (s.endSweep c).swc.cal } := by
      rcases endSweep_swc h c with e | e <;> rw [e]
    refine ⟨endSweep_notices s c, f.tku (by decide), f.smu (by decide), by rw [swc], fun i k => ?_,
      fun i k => endSweep_tracking k c⟩
    rw [heldAsKey_iff] at *
    rcases endSweep_swc h c with e | e <;> rw [e] at k
    · exact k
    · exact .inr (k.resolve_left nofun)
  · rw [endSweep_of_not_storing (Bool.not_eq_true _ ▸ h)]; exact .refl s

/-! ### The end of the decision (01 R12, 02 R23) -/

/-- 02 R23: with selections asked for the operation goes on until they are complete. -/
theorem finishFrame_of_selections {s : State} {o : TrackOp} (h : s.tku.op = some o) (asked : o.selections ≠ []) :
    s.finishFrame = { s with tku.op := some { o with stage := .finished } } := by
  rcases finishFrame_cases h with ⟨e, _⟩ | ⟨_, e⟩
  · exact absurd e asked
  · exact e

theorem finishFrame_of_no_selections {s : State} {o : TrackOp} (h : s.tku.op = some o) (none : o.selections = []) :
    s.finishFrame = s.closeFrame o := by
  rcases finishFrame_cases h with ⟨_, e⟩ | ⟨asked, _⟩
  · exact e
  · exact absurd none asked

/-- Of TKU the end of a decision changes the operation alone. -/
theorem finishFrame_tku (s : State) : s.finishFrame.tku = { s.tku with op := s.finishFrame.tku.op } := by
  cases h : s.tku.op with
  | none => unfold State.finishFrame; rw [h]
  | some o =>
    by_cases none : o.selections = []
    · rw [finishFrame_of_no_selections h none, closeFrame_tku]
    · rw [finishFrame_of_selections h none]

/-- 01 R12: a frame without selections that no key and no reference holds becomes LAST with its result kept. -/
theorem finishFrame_last {s : State} {o : TrackOp} (h : s.tku.op = some o) (none : o.selections = [])
    (other : s.heldAsKey o.slot = false) :
    s.finishFrame.slotState o.slot = .last ∧ s.finishFrame.tku.op = Option.none
      ∧ s.finishFrame.swc.lastResult = o.result := by
  have free : ¬ s.heldAsKey o.slot = true := by rw [other]; decide
  rw [finishFrame_of_no_selections h none]
  refine ⟨?_, closeFrame_op s o, ?_⟩
  · rw [slotState_closeFrame, if_neg free]
  · rw [closeFrame_swc, if_neg free]

/-- 01 R12: a frame without selections that a key holds becomes KEY. -/
theorem finishFrame_key {s : State} {o : TrackOp} (h : s.tku.op = some o) (none : o.selections = [])
    (held : s.heldAsKey o.slot = true) : s.finishFrame.slotState o.slot = .key ∧ s.finishFrame.tku.op = Option.none := by
  rw [finishFrame_of_no_selections h none, slotState_closeFrame, if_pos held]
  exact ⟨rfl, closeFrame_op s o⟩

theorem setStage_of_op {s : State} {o : TrackOp} (h : s.tku.op = some o) (st : TrackStage) :
    (s.setStage st).tku.op = some { o with stage := st } := by
  rw [State.setStage_tku, h]; rfl

/-! ### Step 5 (04 R66) -/

/-- 05 R97: the closure window is judged, and the decision is made. -/
theorem windowStep_cases (s : State) (op : TrackOp) (r : FrameResult) :
    ∃ v, SweepJudged s v ∧ s.windowStep op r = v.finishFrame := by
  unfold State.windowStep
  dsimp only
  split
  · split
    · have run : SweepJudged s { s with cvm.closureRun := 0 } := .of_counts rfl rfl rfl rfl rfl
      exact ⟨_, run.trans (enterState_judged _ .closing), rfl⟩
    · split
      · refine ⟨_, (endSweep_judged s .closureMissed).trans ?_, rfl⟩
        generalize s.endSweep .closureMissed = u
        have f := notify_frame { u with cvm.closureResult := some .missed } (.closureMissed s.swc.id r.stored)
        have swc := f.swc (by decide)
        exact {
          notices := .left rfl (notify_notices _ _)
          tku := f.tku (by decide)
          smu := f.smu (by decide)
          swc := by rw [swc]
          held := fun i h => by rwa [heldAsKey_congr (s := u) (by rw [swc]) (by rw [swc])] at h
          tracking := fun i h => by
            unfold State.slotState at *
            rw [f.igu (by decide)]; exact h }
      · exact ⟨s, .refl s, rfl⟩
  · exact ⟨s, .refl s, rfl⟩

/-- 04 R66 step 5: how step 5 ends, the sweep judged: with a step of the table due, or with the decision made. -/
def StepFiveEnds (v t : State) : Prop := t = v.setStage .paceDue ∨ t = v.setStage .stalledDue ∨ t = v.finishFrame

theorem stallStep_cases (s : State) (op : TrackOp) (r : FrameResult) :
    ∃ v, SweepJudged s v ∧ StepFiveEnds v (s.stallStep op r) := by
  have window {u : State} (h : SweepJudged s u) : ∃ v, SweepJudged s v ∧ StepFiveEnds v (u.windowStep op r) := by
    obtain ⟨v, judged, e⟩ := windowStep_cases u op r
    exact ⟨v, h.trans judged, .inr (.inr e)⟩
  unfold State.stallStep
  dsimp only
  split
  · exact window (.of_counts rfl rfl rfl rfl rfl)
  · split
    · refine ⟨_, ?_, .inr (.inl rfl)⟩
      exact .of_counts rfl rfl rfl rfl rfl
    · exact window (.of_counts rfl rfl rfl rfl rfl)

theorem paceStep_cases (s : State) (op : TrackOp) (r : FrameResult) :
    ∃ v, SweepJudged s v ∧ StepFiveEnds v (s.paceStep op r) := by
  have stall {u : State} (h : SweepJudged s u) : ∃ v, SweepJudged s v ∧ StepFiveEnds v (u.stallStep op r) := by
    obtain ⟨v, judged, e⟩ := stallStep_cases u op r
    exact ⟨v, h.trans judged, e⟩
  unfold State.paceStep
  dsimp only
  split
  · exact stall (.of_counts rfl rfl rfl rfl rfl)
  · split
    · exact ⟨s, .refl s, .inl rfl⟩
    · exact stall (.of_counts rfl rfl rfl rfl rfl)

/-- Of SWC the end of step 5 changes the frame kept as LAST alone. -/
theorem StepFiveEnds.swc {v t : State} (h : StepFiveEnds v t) : t.swc = { v.swc with lastResult := t.swc.lastResult } := by
  rcases h with rfl | rfl | rfl
  · rfl
  · rfl
  · rcases finishFrame_swc v with e | ⟨_, e⟩ <;> rw [e]

/-- The operation after step 5: due for a step of the table, or waiting for its selections, or over without any. -/
theorem StepFiveEnds.op {v t : State} {o : TrackOp} (h : StepFiveEnds v t) (ho : v.tku.op = some o) :
    (∃ st, t.tku.op = some { o with stage := st }
        ∧ (st = .paceDue ∨ st = .stalledDue ∨ st = .finished ∧ o.selections ≠ []) ∧ t.igu = v.igu)
      ∨ (o.selections = [] ∧ t = v.finishFrame) := by
  rcases h with rfl | rfl | rfl
  · exact .inl ⟨_, setStage_of_op ho _, .inl rfl, rfl⟩
  · exact .inl ⟨_, setStage_of_op ho _, .inr (.inl rfl), rfl⟩
  · by_cases none : o.selections = []
    · exact .inr ⟨none, rfl⟩
    · rw [finishFrame_of_selections ho none]
      exact .inl ⟨_, rfl, .inr (.inr ⟨rfl, none⟩), rfl⟩

/-- What step 5 keeps of SWC, of the seam unit and of the frame just decided. -/
theorem paceStep_keeps (s : State) (op : TrackOp) (r : FrameResult) :
    (s.paceStep op r).swc.keys = s.swc.keys ∧ (s.paceStep op r).swc.decided = s.swc.decided
      ∧ (s.paceStep op r).swc.framesPerKey = s.swc.framesPerKey
      ∧ (s.paceStep op r).swc.gyroSinceKey = s.swc.gyroSinceKey
      ∧ (s.paceStep op r).swc.config = s.swc.config
      ∧ (s.paceStep op r).swc.pendingTunables = s.swc.pendingTunables
      ∧ (s.paceStep op r).smu = s.smu := by
  obtain ⟨v, judged, ends⟩ := paceStep_cases s op r
  rw [(paceStep_frame s op r).smu (by decide), ends.swc, judged.swc]
  exact ⟨rfl, rfl, rfl, rfl, rfl, rfl, rfl⟩

end Sys2Proof.Proofs
end

section
/-! What SWC's decision leaves of the tracking unit and of the notices (04 R66, 05 R90), the miss and lock steps before it (02 R38, 03 R47, R56), and the settled O25 and O26. -/
namespace Sys2Proof.Proofs
open Sys2Proof.Machine

/-! ### The operation moves on -/

/-- From `s` to `t` notices are only added, and of TKU the operation alone changes. -/
structure OpMoves (s t : State) : Prop where
  notices : s.NoticesKept t
  tku : t.tku = { s.tku with op := t.tku.op }

theorem OpMoves.refl (s : State) : OpMoves s s := ⟨.refl s, rfl⟩

theorem OpMoves.trans {s t u : State} (h : OpMoves s t) (k : OpMoves t u) : OpMoves s u :=
  ⟨h.notices.trans k.notices, by rw [k.tku, h.tku]⟩

theorem OpMoves.of_lku {s t : State} (lku : t.lku = s.lku) (tku : t.tku = { s.tku with op := t.tku.op }) : OpMoves s t :=
  ⟨.of_lku lku, tku⟩

theorem SweepJudged.opMoves {s t : State} (h : SweepJudged s t) : OpMoves s t := ⟨h.notices, by rw [h.tku]⟩

theorem setStage_opMoves (s : State) (st : TrackStage) : OpMoves s (s.setStage st) := .of_lku rfl rfl

theorem askSelection_opMoves (s : State) (kind : SetKind) (slot : Fin 8) : OpMoves s (s.askSelection kind slot) :=
  .of_lku rfl rfl

theorem applyPending_opMoves (s : State) : OpMoves s s.applyPending := by
  rw [applyPending_eq]; exact .of_lku rfl rfl

theorem finishFrame_opMoves (s : State) : OpMoves s s.finishFrame := ⟨finishFrame_notices s, finishFrame_tku s⟩

theorem OpMoves.finished {s t : State} (h : OpMoves s t) : OpMoves s t.finishFrame := h.trans (finishFrame_opMoves t)

theorem OpMoves.staged {s t : State} (h : OpMoves s t) (st : TrackStage) : OpMoves s (t.setStage st) :=
  h.trans (setStage_opMoves t st)

theorem OpMoves.ended {s t : State} (h : OpMoves s t) (c : EndCause) : OpMoves s (t.endSweep c) :=
  h.trans (endSweep_judged t c).opMoves

theorem StepFiveEnds.opMoves {v t : State} (h : StepFiveEnds v t) : OpMoves v t := by
  rcases h with rfl | rfl | rfl
  · exact setStage_opMoves v _
  · exact setStage_opMoves v _
  · exact finishFrame_opMoves v

theorem paceStep_opMoves (s : State) (op : TrackOp) (r : FrameResult) : OpMoves s (s.paceStep op r) := by
  obtain ⟨v, judged, ends⟩ := paceStep_cases s op r
  exact judged.opMoves.trans ends.opMoves

theorem recordKey_opMoves (s : State) (k : KeyRecord) : OpMoves s (s.recordKey k) := by
  refine ⟨(notify_notices s _).trans (.of_lku (recordKey_lku s k)), ?_⟩
  rw [(recordKey_frame s k).tku (by decide)]

theorem notifyKey_opMoves (s : State) (k : KeyRecord) : OpMoves s (s.notifyKey k) := by
  refine ⟨(notify_notices s _).trans (.of_lku rfl), ?_⟩
  rw [(notifyKey_frame s k).tku (by decide)]

theorem takeKeyZero_opMoves (s : State) (slot : Fin 8) (inliers : Nat) (lock : LockState) :
    OpMoves s (s.takeKeyZero slot inliers lock) := by
  have added : OpMoves s (s.addKey (s.keyZeroRecord slot inliers lock)) := .of_lku rfl rfl
  have leading := added.trans (askSelection_opMoves _ .leading slot)
  unfold State.takeKeyZero
  dsimp only
  split
  · exact ((leading.trans (askSelection_opMoves _ _ _)).trans (applyPending_opMoves _)).trans (notifyKey_opMoves _ _)
  · exact (leading.trans (applyPending_opMoves _)).trans (notifyKey_opMoves _ _)

/-! ### SWC's decision (04 R66, 05 R90) -/

/-- A decision on result `r`: the operation moves on, and TKU rebases by `r` or not (03 R54). -/
def Decides (r : FrameResult) (s t : State) : Prop := OpMoves s t ∨ OpMoves (s.rebase r) t

theorem Decides.after {r : FrameResult} {s t u : State} (h : OpMoves s t) (k : Decides r t u) : Decides r s u := by
  refine k.imp h.trans (fun k => ⟨h.notices.trans k.notices, ?_⟩)
  rw [k.tku, State.rebase_tku, h.tku]; rfl

theorem Decides.notices {r : FrameResult} {s t : State} (h : Decides r s t) : s.NoticesKept t :=
  h.elim OpMoves.notices OpMoves.notices

theorem Decides.tku {r : FrameResult} {s t : State} (h : Decides r s t) :
    t.tku = { s.tku with op := t.tku.op, held := t.tku.held } := by
  rcases h with h | h <;> rw [h.tku]; rfl

theorem Decides.held {r : FrameResult} {s t : State} (h : Decides r s t) :
    t.tku.held = s.tku.held ∨ t.tku.held = (s.tku.held.1 - r.au, s.tku.held.2 - r.av) := by
  refine h.imp (fun h => ?_) (fun h => ?_) <;> rw [h.tku]; rfl

theorem takeTracked_decides (s : State) (op : TrackOp) (r : FrameResult) (kind : KeyKind) :
    Decides r s (s.takeTracked op r kind) := by
  have recorded := recordKey_opMoves s (s.keyRecordOf op.slot op.position r kind)
  have based : OpMoves (s.rebase r)
      (((s.recordKey (s.keyRecordOf op.slot op.position r kind)).askSelection .leading op.slot).rebase r) := by
    refine ⟨.trans (.of_lku rfl) (recorded.notices.trans (.of_lku rfl)), ?_⟩
    rw [State.rebase_tku, State.askSelection_tku, recorded.tku]; rfl
  have applied := based.trans (applyPending_opMoves _)
  unfold State.takeTracked
  dsimp only
  split
  · have cleared : OpMoves s { s.recordKey (s.keyRecordOf op.slot op.position r kind) with swc.closurePending := false } :=
      recorded.trans (.of_lku rfl rfl)
    exact .inl (cleared.ended .closed).finished
  · split
    · split
      · exact .inr (applied.staged _)
      · exact .inr (applied.trans (paceStep_opMoves _ op r))
    · exact .inl recorded.finished

theorem judgeKey_decides (s : State) (op : TrackOp) (r : FrameResult) : Decides r s (s.judgeKey op r) := by
  unfold State.judgeKey
  dsimp only
  split
  · exact .inl ((OpMoves.refl s).ended _).finished
  · split
    · exact .inl ((OpMoves.refl s).ended _).finished
    · split
      · exact .inl (paceStep_opMoves s op r)
      · split
        · exact .inl ((OpMoves.refl s).ended _).finished
        · unfold State.takeOrWait
          split
          · exact takeTracked_decides s op r _
          · exact .inl (setStage_opMoves s _)

theorem keyDecision_decides (s : State) (op : TrackOp) (r : FrameResult) : Decides r s (s.keyDecision op r) := by
  have run (n : Nat) : Decides r s ((s.setClosureRun n).judgeKey op r) := by
    have counted : OpMoves s (s.setClosureRun n) := .of_lku rfl rfl
    exact .after counted (judgeKey_decides (s.setClosureRun n) op r)
  unfold State.keyDecision
  split
  · split
    · split
      · split
        · exact .inl (setStage_opMoves s _)
        · exact run 1
      · exact run 0
    · exact run 0
  · exact judgeKey_decides s op r

theorem takeFirstFrame_decides (s : State) (op : TrackOp) (r : FrameResult) : Decides r s (s.takeFirstFrame op r) := by
  have key := takeKeyZero_opMoves s op.slot r.m r.lock
  have based : OpMoves ((s.takeKeyZero op.slot r.m r.lock).rebase r)
      { (s.takeKeyZero op.slot r.m r.lock).rebase r with swc.highWater := some 0 } := .of_lku rfl rfl
  exact .after key (.inr based.finished)

theorem takeProvisional_opMoves (s : State) (op : TrackOp) (r : FrameResult) :
    OpMoves (s.rebase r) (s.takeProvisional op r) := .of_lku rfl rfl

theorem judgeCalibration_opMoves (s : State) (r : FrameResult) : OpMoves s (s.judgeCalibration r) := by
  have counted (x : Calibration) : OpMoves s { s with swc.cal := x } := .of_lku rfl rfl
  unfold State.judgeCalibration
  dsimp only
  split
  · exact (counted _).staged _
  · split
    · exact (counted _).staged _
    · split
      · exact (counted _).staged _
      · exact (counted _).finished

/-- 05 R90: the mark that a frame of the calibration leaves. -/
def gyroMarked (s : State) (r : FrameResult) : State := { s with swc.gyroSinceKey := s.swc.gyroSinceKey || r.gyroMark }

theorem calibrate_of_none {s : State} (h : s.swc.cal.provisional = none) (op : TrackOp) (r : FrameResult) :
    s.calibrate op r = ((gyroMarked s r).takeProvisional op r).finishFrame := by
  unfold State.calibrate
  dsimp only
  rw [h]; rfl

theorem calibrate_of_reference {s : State} {p : Fin 8} (h : s.swc.cal.provisional = some p) (op : TrackOp)
    (r : FrameResult) : s.calibrate op r = (gyroMarked s r).judgeCalibration r := by
  unfold State.calibrate
  dsimp only
  rw [h]; rfl

theorem calibrate_decides (s : State) (op : TrackOp) (r : FrameResult) : Decides r s (s.calibrate op r) := by
  have marked : OpMoves s (gyroMarked s r) := .of_lku rfl rfl
  cases h : s.swc.cal.provisional with
  | none =>
    rw [calibrate_of_none h]
    exact .after marked (.inr (takeProvisional_opMoves _ op r).finished)
  | some p =>
    rw [calibrate_of_reference h]
    exact .after marked (.inl (judgeCalibration_opMoves _ r))

/-! ### The decision by session state -/

/-- 04 R64: the operation with its frame's position, as SWC decides on it. -/
def placedOp (s : State) (op : TrackOp) (r : FrameResult) : TrackOp := { op with position := s.positionOf r }

/-- The state in which SWC decides on the frame of an operation. -/
def placed (s : State) (op : TrackOp) (r : FrameResult) : State := { s with tku.op := some (placedOp s op r) }

theorem placed_op (s : State) (op : TrackOp) (r : FrameResult) : (placed s op r).tku.op = some (placedOp s op r) := rfl

theorem decideFrame_of_calibrates {s : State} {op : TrackOp} (hop : s.tku.op = some op) (cal : Calibrates s.swc.state)
    (r : FrameResult) : s.decideFrame r = (placed s op r).calibrate (placedOp s op r) r := by
  unfold State.decideFrame
  rw [hop]
  rcases cal with e | e <;> simp only [e] <;> rfl

/-- 05 R94: a sweep without a key. -/
theorem decideFrame_of_first {s : State} {op : TrackOp} (hop : s.tku.op = some op) (sweeping : s.swc.state = .sweeping)
    (keys : s.swc.keys = []) (r : FrameResult) :
    s.decideFrame r = ((placed s op r).countFrame r).takeFirstFrame (placedOp s op r) r := by
  unfold State.decideFrame
  rw [hop]
  simp only [sweeping, keys]; rfl

theorem decideFrame_of_sweep {s : State} {op : TrackOp} (hop : s.tku.op = some op)
    (sweep : s.swc.state = .sweeping ∧ s.swc.keys ≠ [] ∨ s.swc.state = .closing) (r : FrameResult) :
    s.decideFrame r = ((placed s op r).countFrame r).keyDecision (placedOp s op r) r := by
  unfold State.decideFrame
  rw [hop]
  rcases sweep with ⟨e, keys⟩ | e
  · have some : s.swc.keys.isEmpty = false := Bool.eq_false_iff.mpr (mt List.isEmpty_iff.mp keys)
    simp only [e, some]; rfl
  · simp only [e]; rfl

/-- 05 R98: outside the storing states a frame only completes. -/
theorem decideFrame_of_not_storing {s : State} {op : TrackOp} (hop : s.tku.op = some op) (h : s.storing = false)
    (r : FrameResult) : s.decideFrame r = (placed s op r).finishFrame := by
  unfold State.storing at h
  unfold State.decideFrame
  rw [hop]
  cases e : s.swc.state
  case idle | armed | finishing | done => simp only [e]; rfl
  case calibrating | recalibrating | sweeping | closing => rw [e] at h; cases h

theorem decideFrame_decides (s : State) (r : FrameResult) : Decides r s (s.decideFrame r) := by
  cases hop : s.tku.op with
  | none => unfold State.decideFrame; rw [hop]; exact .inl (.refl s)
  | some op =>
    have put : OpMoves s (placed s op r) := .of_lku rfl rfl
    have counted : OpMoves s ((placed s op r).countFrame r) := .of_lku rfl rfl
    have swept (sweep : s.swc.state = .sweeping ∧ s.swc.keys ≠ [] ∨ s.swc.state = .closing) :
        Decides r s (s.decideFrame r) := by
      rw [decideFrame_of_sweep hop sweep]
      exact .after counted (keyDecision_decides _ _ r)
    cases e : s.swc.state
    case calibrating | recalibrating =>
      rw [decideFrame_of_calibrates hop (by rw [e]; decide)]
      exact .after put (calibrate_decides _ _ r)
    case sweeping =>
      by_cases keys : s.swc.keys = []
      · rw [decideFrame_of_first hop e keys]
        exact .after counted (takeFirstFrame_decides _ _ r)
      · exact swept (.inl ⟨e, keys⟩)
    case closing => exact swept (.inr e)
    case idle | armed | finishing | done =>
      rw [decideFrame_of_not_storing hop (by unfold State.storing; rw [e]; rfl)]
      exact .inl put.finished

/-! ### The frame result (03 R47) -/

/-- 03 R47 stages 6 and 7: the result that TKU hands to SWC. -/
def resultOf (s : State) (op : TrackOp) : FrameResult :=
  let rec' := s.igu.slots[op.slot].record.getD default
  { stored := s.storedOf op.slot, interval := rec'.interval.getD 1, cls := op.main.cls
    source := op.source, au := op.used.1, av := op.used.2, m := op.main.m, n := op.main.n
    memory := op.main.memory, inView := activeCount s.tku.mainSet, lock := s.tku.lock.state
    su := s.tku.step.1, sv := s.tku.step.2, gyroMark := rec'.snapshot.received
    closure := op.closure }

/-- The operation with its result, as SWC is handed it. -/
def withResult (s : State) (op : TrackOp) : State :=
  { s with tku.op := some { op with result := some (resultOf s op), stage := .finished } }

theorem frameResult_eq (s : State) (op : TrackOp) :
    s.frameResult op = (withResult s op).decideFrame (resultOf s op) := rfl

theorem frameResult_decides (s : State) (op : TrackOp) : Decides (resultOf s op) s (s.frameResult op) :=
  .after (.of_lku (t := withResult s op) rfl rfl) (decideFrame_decides _ _)

/-! ### The lock detector (03 R56) -/

/-- 03 R56: the lock detector after a frame, GOOD or not, up to the steps that the table lists on their own. -/
def lockAfter (l : Lock) (good : Bool) : Lock :=
  match good, l.state with
  | true, .acquiring | true, .lost => { l with goodRun := l.goodRun + 1 }
  | true, .locked => l
  | true, .coasting => { l with state := .locked, missRun := 0 }
  | false, .acquiring | false, .lost => { l with goodRun := 0 }
  | false, .locked => { l with state := .coasting, missRun := 1 }
  | false, .coasting => { l with missRun := l.missRun + 1 }

/-- 03 R56: the step of the table that a frame, GOOD or not, makes due. -/
def lockDue (c : SessionConfig) (l : Lock) (good : Bool) : Option TrackStage :=
  match good, l.state with
  | true, .acquiring | true, .lost => if c.lockCount ≤ l.goodRun + 1 then some .lockedDue else none
  | false, .coasting => if c.coastLimit ≤ l.missRun + 1 then some .lostDue else none
  | true, .locked | true, .coasting | false, .acquiring | false, .lost | false, .locked => none

/-- The state in which the frame of an operation meets the lock detector `l`. -/
def locked (s : State) (op : TrackOp) (l : Lock) : State := { s with tku.op := some op, tku.lock := l }

/-- 03 R58: a lock state taken, and noticed when it is another. -/
def lockNoticed (s : State) (op : TrackOp) (l : Lock) : State :=
  if l.state = s.tku.lock.state then locked s op l else (locked s op l).notifyTrack op s.tku.lock.state

theorem lockStep_eq (s : State) (op : TrackOp) : s.lockStep op
    = match lockDue s.cfg s.tku.lock (decide (op.main.cls = .good)) with
      | some st => (locked s op (lockAfter s.tku.lock (decide (op.main.cls = .good)))).setStage st
      | none => (lockNoticed s op (lockAfter s.tku.lock (decide (op.main.cls = .good)))).frameResult op := by
  have cfg : ({ s with tku.op := some op } : State).cfg = s.cfg := rfl
  unfold State.lockStep lockNoticed
  by_cases good : op.main.cls = .good
  · simp only [good, if_true, decide_true]
    cases h : s.tku.lock.state
    case acquiring | lost =>
      simp only [lockDue, lockAfter, h, if_true, cfg]
      by_cases full : s.cfg.lockCount ≤ s.tku.lock.goodRun + 1 <;> simp only [full, if_true, if_false] <;> rfl
    case locked =>
      simp only [lockDue, lockAfter, h, if_true]
      rfl
    case coasting =>
      simp only [lockDue, lockAfter, h]
      rfl
  · simp only [good, if_false, decide_false]
    cases h : s.tku.lock.state
    case acquiring | lost =>
      simp only [lockDue, lockAfter, h, if_true]
      rfl
    case locked =>
      simp only [lockDue, lockAfter, h]
      rfl
    case coasting =>
      simp only [lockDue, lockAfter, h, if_true, cfg]
      by_cases full : s.cfg.coastLimit ≤ s.tku.lock.missRun + 1 <;> simp only [full, if_true, if_false] <;> rfl

/-- 03 R58: what the taking of a lock state keeps, beside the notice. -/
theorem lockNoticed_eq (s : State) (op : TrackOp) (l : Lock) :
    lockNoticed s op l = { locked s op l with lku := (lockNoticed s op l).lku } := by
  unfold lockNoticed State.notifyTrack
  split
  · rfl
  · rw [notify_eq]

/-- 03 R58: a change of lock state is noticed with the radius for the state after it. -/
theorem notifyTrack_noticed (s : State) (op : TrackOp) (l : Lock) (before : LockState) :
    s.Noticed ((locked s op l).notifyTrack op before) (.track s.swc.id (s.storedOf op.slot) before l.state
      op.main.cls op.main.m op.main.n (s.radiusFor l.state)) :=
  (notify_noticed (locked s op l) _).of_lku rfl

/-! ### The motion and lock steps of a frame (03 R47 stages 4 and 5) -/

/-- 03 R51, R52: the frame's interval as a divisor. -/
def frameInterval (s : State) (op : TrackOp) : Nat := (s.igu.slots[op.slot].record.bind FrameRecord.interval).getD 1

/-- 03 R52: the velocity step after a frame. -/
def stepAfter (s : State) (op : TrackOp) : Int × Int :=
  if op.main.cls = .none then s.tku.step
  else (roundDiv (op.used.1 - s.tku.held.1) (frameInterval s op), roundDiv (op.used.2 - s.tku.held.2) (frameInterval s op))

/-- 03 R47 stages 4 and 5: the frame leaves a step of the table due, or goes on to SWC's decision. -/
theorem afterMisses_cases (s : State) (op : TrackOp) (l : Lock) (due : Option TrackStage)
    (hl : l = lockAfter s.tku.lock (decide (op.main.cls = .good)))
    (hdue : due = lockDue s.cfg s.tku.lock (decide (op.main.cls = .good))) :
    (∃ st, due = some st ∧ s.afterMisses op = (locked (s.motionStep op) op l).setStage st)
      ∨ (due = none ∧ s.afterMisses op = (lockNoticed (s.motionStep op) op l).frameResult op) := by
  have e := lockStep_eq (s.motionStep op) op
  rw [show lockAfter (s.motionStep op).tku.lock _ = l from hl.symm,
    show lockDue (s.motionStep op).cfg (s.motionStep op).tku.lock _ = due from hdue.symm] at e
  cases due with
  | some st => exact .inl ⟨st, rfl, e⟩
  | none => exact .inr ⟨rfl, e⟩

/-- What stages 4 and 5 and the decision leave of TKU: sets and gyro as they were, step and lock as R52 and R56 have them. -/
theorem afterMisses_tku (s : State) (op : TrackOp) : (s.afterMisses op).tku = { s.tku with
    step := stepAfter s op, lock := lockAfter s.tku.lock (decide (op.main.cls = .good))
    held := (s.afterMisses op).tku.held, op := (s.afterMisses op).tku.op } := by
  rcases afterMisses_cases s op _ _ rfl rfl with ⟨st, _, e⟩ | ⟨_, e⟩ <;> rw [e]
  · rfl
  · rw [(frameResult_decides _ op).tku, lockNoticed_eq]; rfl

/-- 03 R51, R54: the held estimate after the decision: the result used, or the origin where the decision rebases to the frame. -/
theorem afterMisses_held (s : State) (op : TrackOp) :
    (s.afterMisses op).tku.held = op.used ∨ (s.afterMisses op).tku.held = (0, 0) := by
  rcases afterMisses_cases s op _ _ rfl rfl with ⟨st, _, e⟩ | ⟨_, e⟩ <;> rw [e]
  · exact .inl rfl
  · have held : (lockNoticed (s.motionStep op) op (lockAfter s.tku.lock (decide (op.main.cls = .good)))).tku.held
        = op.used := by rw [lockNoticed_eq]; rfl
    refine (frameResult_decides _ op).held.imp (fun h => h.trans held) (fun h => h.trans ?_)
    rw [held]
    exact Prod.ext (sub_self _) (sub_self _)

/-! ### Memory-error frames (02 R37, 03 R52) -/

theorem formConsensus_of_failed {s : State} {op : TrackOp} (h : op.rd.failed ≠ []) : s.formConsensus op
    = (s, { op with main := memoryConsensus, closure := op.cpred.map (fun _ => memoryConsensus)
                    used := (op.pu, op.pv), source := .predict }, []) := by
  unfold State.formConsensus; exact if_neg h

theorem exec_searchComplete_of_made {s : State} {op : TrackOp} (hop : s.tku.op = some op) (search : op.stage = .searching)
    (reads : s.nextSearchRead = none) : exec .searchComplete s
      = if (s.formConsensus op).2.2 = [] then .next ((s.formConsensus op).1.afterMisses (s.formConsensus op).2.1).settle
        else .next ({ (s.formConsensus op).1 with tku.op := some { (s.formConsensus op).2.1 with
          stage := .patchesDue (s.formConsensus op).2.2 } } : State).settle := by
  show execSearchComplete s = _
  unfold execSearchComplete
  rw [hop]
  exact if_pos ⟨search, reads⟩

/-- Settles O25: while reads are left the command has no effect; with none left the frame goes on without a miss, and the class of its consensus keeps the step. -/
theorem memoryErrorFrame : Obligations.MemoryErrorFrame := by
  intro s op hop search failed
  by_cases reads : s.nextSearchRead = none
  · have run := exec_searchComplete_of_made hop search reads
    rw [formConsensus_of_failed failed, if_pos rfl] at run
    refine ⟨_, run, ?_⟩
    rw [settle_tku, afterMisses_tku]
    exact ⟨rfl, rfl, rfl, rfl⟩
  · refine ⟨s, ?_, rfl, rfl, rfl, rfl⟩
    show execSearchComplete s = _
    unfold execSearchComplete
    rw [hop]
    exact if_neg (fun h => reads h.2)

/-! ### Third misses and full runs (02 R38, 03 R56) -/

/-- 02 R38: the front loss is taken; with more of them the frame waits on. -/
theorem exec_patchLost {s : State} {op : TrackOp} (hop : s.tku.op = some op) {set : Bool} {id : Nat}
    {rest : List (Bool × Nat)} (due : op.stage = .patchesDue ((set, id) :: rest)) : ∃ t, exec .patchLost s = .next t
      ∧ t.tku.mainSet = (s.losePatch set id).tku.mainSet ∧ t.tku.closureSet = (s.losePatch set id).tku.closureSet := by
  have run : exec .patchLost s = if rest = [] then .next ((s.losePatch set id).afterMisses op).settle
      else .next { s.losePatch set id with tku.op := some { op with stage := .patchesDue rest } } := by
    show execPatchLost s = _
    unfold execPatchLost
    rw [hop]
    simp only [due]
  by_cases last : rest = []
  · rw [if_pos last] at run
    refine ⟨_, run, ?_⟩
    rw [settle_tku, afterMisses_tku]
    exact ⟨rfl, rfl⟩
  · rw [if_neg last] at run
    exact ⟨_, run, rfl, rfl⟩

/-- 03 R56, R58: a lock state taken by its own step of the table, with its notice, after which the frame goes on. -/
theorem lockTaken {s : State} {op : TrackOp} (hop : s.tku.op = some op) (l : Lock) :
    (((s.setLock l).notifyTrack op s.tku.lock.state).frameResult op).settle.tku.lock = l
      ∧ s.Noticed (((s.setLock l).notifyTrack op s.tku.lock.state).frameResult op).settle
          (.track s.swc.id (s.storedOf op.slot) s.tku.lock.state l.state op.main.cls op.main.m op.main.n
            (s.radiusFor l.state)) := by
  have taken : s.setLock l = locked s op l := by unfold State.setLock locked; rw [← hop]
  have decided := frameResult_decides ((s.setLock l).notifyTrack op s.tku.lock.state) op
  refine ⟨?_, ?_⟩
  · rw [settle_tku, decided.tku, (notifyTrack_frame _ op _).tku (by decide)]; rfl
  · refine State.Noticed.kept ?_ (decided.notices.trans (settle_notices _))
    rw [taken]
    exact notifyTrack_noticed s op l _

/-- Settles O26: the loss changes one record of its set, which nothing after it touches; a full run takes its lock state. -/
theorem patchAndLockSteps : Obligations.PatchAndLockSteps := by
  refine ⟨fun s op id rest hop => ⟨exec_patchLost hop, fun due => ?_⟩, fun s op hop => ⟨fun due => ?_, fun due => ?_⟩⟩
  · obtain ⟨t, run, main, closure⟩ := exec_patchLost hop due
    exact ⟨t, run, closure, main⟩
  · refine ⟨_, ?_, lockTaken hop { state := .locked }⟩
    show execTrackLocked s = _
    unfold execTrackLocked
    rw [hop]
    exact if_pos due
  · refine ⟨_, ?_, lockTaken hop { state := .lost }⟩
    show execTrackLost s = _
    unfold execTrackLost
    rw [hop]
    exact if_pos due

end Sys2Proof.Proofs
end

section
/-! Calibration (05 R90 to R92, 04 R75): how a frame is counted and judged, how key 0 is taken, and the settled O28 and O29. -/
namespace Sys2Proof.Proofs
open Sys2Proof.Machine

/-! ### A selection asked for (02 R23) -/

theorem askSelection_of_op {s : State} {o : TrackOp} (h : s.tku.op = some o) (kind : SetKind) (slot : Fin 8) :
    (s.askSelection kind slot).tku
      = { s.tku with op := some { o with selections := o.selections ++ [{ kind := kind, slot := slot }] } } := by
  rw [State.askSelection_tku, h]; rfl

/-- 02 R23, R40: a command that ends with the decision on a frame for which selections are asked. -/
theorem settle_finishFrame_of_selections {s : State} {o : TrackOp} (h : s.tku.op = some o) (asked : o.selections ≠ []) :
    s.finishFrame.settle
      = { s with tku.op := some { o with stage := .finished }, grant := s.finishFrame.settle.grant } := by
  have e := finishFrame_of_selections h asked
  have settled := settle_of_op (s := s.finishFrame) (congrArg (·.tku.op) e)
  generalize s.finishFrame.settle = t at settled
  rw [settled, e]

/-! ### A change of session state (05 R89) -/

theorem enterState_eq (s : State) (a : SessionState) :
    s.enterState a = { s with swc.state := a, lku := (s.enterState a).lku } := by
  unfold State.enterState State.notifySession
  rw [notify_eq]

/-- 05 R89: a change of session state behind another notice is the second one noticed. -/
theorem enterState_noticedNext {s t : State} {b : NoticeBody} (h : t.lku = (s.notify b).lku) (a : SessionState) :
    s.NoticedNext (t.enterState a) (.session t.swc.id t.swc.state a
      (if a = .finishing ∨ a = .done then t.swc.endCause else none) t.swc.decided t.swc.keys.length t.igu.nextStored) := by
  unfold State.enterState State.notifySession
  exact notify_noticedNext (t := { t with swc.state := a }) h _

/-! ### Key 0 (04 R75) -/

/-- 04 R75: the selections that key 0 asks for. -/
def keyZeroSelections (s : State) (slot : Fin 8) : List Selection :=
  { kind := .leading, slot := slot } :: (if s.cfg.extent = .fullCircle then [{ kind := .closure, slot := slot }] else [])

/-- 04 R75: what the taking of key 0 changes beside its notice. -/
theorem takeKeyZero_eq {s : State} {o : TrackOp} (h : s.tku.op = some o) (slot : Fin 8) (inliers : Nat) (lock : LockState) :
    s.takeKeyZero slot inliers lock = { s with
      tku := { s.tku with op := some { o with selections := o.selections ++ keyZeroSelections s slot } }
      swc := { s.swc with
        keys := s.swc.keys ++ [s.keyZeroRecord slot inliers lock]
        config := match s.swc.pendingTunables with
          | some u => s.swc.config.map (fun c => c.tune u)
          | none => s.swc.config
        pendingTunables := none
        framesPerKey := 0
        gyroSinceKey := false }
      lku := (s.takeKeyZero slot inliers lock).lku } := by
  unfold State.takeKeyZero State.notifyKey keyZeroSelections
  dsimp only
  rw [notify_eq, applyPending_eq]
  by_cases full : s.cfg.extent = .fullCircle <;> simp [full, State.askSelection, State.addKey, h] <;> rfl

/-- 04 R75: the taking of key 0 does to the link unit what its KEY notice does. -/
theorem takeKeyZero_lku (s : State) (slot : Fin 8) (inliers : Nat) (lock : LockState) :
    (s.takeKeyZero slot inliers lock).lku = (s.notify (.key s.swc.id 0 (s.keyZeroRecord slot inliers lock).stored 0
      (s.keyZeroRecord slot inliers lock).v (placeU 0) (placeV (s.keyZeroRecord slot inliers lock).v) 0 .image
      (s.keyZeroRecord slot inliers lock).flags inliers s.swc.framesPerKey)).lku := by
  have same (u : State) (b : NoticeBody) (e : u.lku = s.lku) : (u.notify b).lku = (s.notify b).lku := by
    unfold State.notify
    rw [e]
    split <;> rfl
  unfold State.takeKeyZero State.notifyKey
  dsimp only
  rw [applyPending_eq]
  split <;> exact same _ _ rfl

/-! ### The direction is decided (05 R91) -/

/-- 05 R91: the direction taken from the sign of the deciding frame. -/
def directed (s : State) (r : FrameResult) : State :=
  { s with swc.decided := if 0 < r.au then some .right else some .left }

/-- 05 R91: in its own direction the deciding frame lies ahead. -/
theorem directed_sgn_mul (s : State) (r : FrameResult) : (directed s r).sgn * r.au = r.au.natAbs := by
  unfold State.sgn State.left directed
  by_cases right : 0 < r.au
  · simp [right, abs_of_pos right]
  · simp [right, abs_of_nonpos (not_lt.mp right)]

/-- 05 R91, 04 R75: key 0 taken from the provisional reference, in the direction decided. -/
def referenceTaken (s : State) (r : FrameResult) (p : Fin 8) : State :=
  (directed s r).takeKeyZero p s.swc.cal.inliers r.lock

/-- 05 R91: the high-water mark set from the deciding frame, and the calibration over. -/
def calibrated (s : State) (r : FrameResult) : State :=
  { s with swc.highWater := some (4 * (r.au.natAbs : Int)), swc.cal := {} }

theorem decideDirection_eq (s : State) (r : FrameResult) (p : Fin 8) :
    s.decideDirection r p = (calibrated (referenceTaken s r p) r).enterState .sweeping := by
  have sign : (referenceTaken s r p).sgn = (directed s r).sgn := by
    unfold State.sgn State.left referenceTaken State.takeKeyZero
    dsimp only
    rw [notifyKey_swc, applyPending_eq]
    split <;> rfl
  unfold calibrated
  rw [← directed_sgn_mul s r, ← mul_assoc, ← sign]
  rfl

/-- 05 R91: what the decision changes beside its notices. -/
theorem decideDirection_blocks {s : State} {op : TrackOp} (hop : s.tku.op = some op) (r : FrameResult) (p : Fin 8) :
    s.decideDirection r p = { s with
      tku := { s.tku with op := some { op with selections := op.selections ++ keyZeroSelections s p } }
      swc := { s.swc with
        decided := if 0 < r.au then some .right else some .left, state := .sweeping
        keys := s.swc.keys ++ [s.keyZeroRecord p s.swc.cal.inliers r.lock]
        highWater := some (4 * (r.au.natAbs : Int)), cal := {}
        config := match s.swc.pendingTunables with
          | some u => s.swc.config.map (fun c => c.tune u)
          | none => s.swc.config
        pendingTunables := none, framesPerKey := 0, gyroSinceKey := false }
      lku := (s.decideDirection r p).lku } := by
  have key : referenceTaken s r p = _ := takeKeyZero_eq (s := directed s r) hop p s.swc.cal.inliers r.lock
  have entered := enterState_eq (calibrated (referenceTaken s r p) r) .sweeping
  rw [← decideDirection_eq] at entered
  generalize s.decideDirection r p = v at entered
  generalize referenceTaken s r p = u at key entered
  generalize v.lku = l at entered
  generalize u.lku = m at key
  subst key entered
  rfl

/-- 04 R73, 05 R89: the KEY notice of key 0, and behind it the SESSION notice. -/
theorem decideDirection_notices {s : State} {op : TrackOp} (hop : s.tku.op = some op) (r : FrameResult) (p : Fin 8)
    {k : KeyRecord} (hk : k = s.keyZeroRecord p s.swc.cal.inliers r.lock) :
    s.Noticed (s.decideDirection r p) (.key s.swc.id 0 k.stored 0 k.v (placeU 0) (placeV k.v) 0 .image k.flags k.inliers
        s.swc.framesPerKey)
      ∧ s.NoticedNext (s.decideDirection r p) (.session s.swc.id s.swc.state .sweeping none
          (if 0 < r.au then some .right else some .left) (s.swc.keys.length + 1) s.igu.nextStored) := by
  have blocks : referenceTaken s r p = _ := takeKeyZero_eq (s := directed s r) hop p s.swc.cal.inliers r.lock
  have key : (referenceTaken s r p).lku = _ := takeKeyZero_lku (directed s r) p s.swc.cal.inliers r.lock
  have queued : (directed s r).Noticed (referenceTaken s r p) _ := (notify_noticed (directed s r) _).kept (.of_lku key)
  have next := enterState_noticedNext (t := calibrated (referenceTaken s r p) r) key .sweeping
  have kept := enterState_notices (calibrated (referenceTaken s r p) r) .sweeping
  rw [← decideDirection_eq] at next kept
  have body : (NoticeBody.session (calibrated (referenceTaken s r p) r).swc.id
      (calibrated (referenceTaken s r p) r).swc.state .sweeping none (calibrated (referenceTaken s r p) r).swc.decided
      (calibrated (referenceTaken s r p) r).swc.keys.length (calibrated (referenceTaken s r p) r).igu.nextStored)
        = .session s.swc.id s.swc.state .sweeping none (if 0 < r.au then some .right else some .left)
          (s.swc.keys.length + 1) s.igu.nextStored := by
    unfold calibrated
    rw [blocks]
    simp [directed]
  subst hk
  refine ⟨(queued.of_lku rfl).kept kept, ?_⟩
  rw [← body]
  exact next

theorem exec_calibrationDecision {s : State} {op : TrackOp} {r : FrameResult} {p : Fin 8} (hop : s.tku.op = some op)
    (due : op.stage = .calDecisionDue) (hr : op.result = some r) (hp : s.swc.cal.provisional = some p)
    (hs : s.storing = true) : exec .calibrationDecision s = .next (s.decideDirection r p).finishFrame.settle := by
  show execCalibrationDecision s = _
  unfold execCalibrationDecision
  simp only [hop, due, hr, hp]
  exact if_pos hs

/-! ### A frame of the calibration (05 R90) -/

theorem calQualifies_iff (s : State) (r : FrameResult) :
    s.calQualifies r = true ↔ r.cls = .good ∧ 2 * s.cfg.wt ≤ r.au.natAbs := by
  unfold State.calQualifies; exact decide_eq_true_iff

/-- 05 R91: the second qualifying frame of one sign in a row. -/
theorem judgeCalibration_of_run {s : State} {r : FrameResult} (q : r.cls = .good ∧ 2 * s.cfg.wt ≤ r.au.natAbs)
    (run : s.swc.cal.run = some (decide (0 < r.au))) : s.judgeCalibration r
      = ({ s with swc.cal.count := s.swc.cal.count + 1 } : State).setStage .calDecisionDue := by
  unfold State.judgeCalibration
  dsimp only
  rw [if_pos ⟨(calQualifies_iff s r).mpr q, run⟩]

/-- 05 R90: the state once a frame that decides nothing is counted. -/
def calCounted (s : State) (r : FrameResult) : State :=
  { s with swc.cal := { s.swc.cal with
      count := s.swc.cal.count + 1
      run := if r.cls = .good ∧ 2 * s.cfg.wt ≤ r.au.natAbs then some (decide (0 < r.au)) else none } }

/-- 05 R92, R93: any other frame is counted, and a count that is reached makes its step of the table due. -/
theorem judgeCalibration_of_other {s : State} {r : FrameResult}
    (other : ¬ (r.cls = .good ∧ 2 * s.cfg.wt ≤ r.au.natAbs ∧ s.swc.cal.run = some (decide (0 < r.au)))) :
    s.judgeCalibration r
      = if s.swc.state = .calibrating ∧ s.cfg.calFrames ≤ s.swc.cal.count + 1 then (calCounted s r).setStage .calTimeoutDue
        else if s.swc.state = .recalibrating ∧ 2 * s.cfg.calFrames ≤ s.swc.cal.count + 1
          then (calCounted s r).setStage .noSweepDue
        else (calCounted s r).finishFrame := by
  unfold State.judgeCalibration calCounted
  simp only [calQualifies_iff]
  rw [if_neg (fun h => other ⟨h.1.1, h.1.2, h.2⟩)]

/-- What judging a frame of the calibration does to the calibration's own record: the end of the decision leaves it. -/
theorem judgeCalibration_cal_of_other {s : State} {r : FrameResult}
    (other : ¬ (r.cls = .good ∧ 2 * s.cfg.wt ≤ r.au.natAbs ∧ s.swc.cal.run = some (decide (0 < r.au)))) :
    (s.judgeCalibration r).swc.cal = (calCounted s r).swc.cal := by
  rw [judgeCalibration_of_other other]
  split
  · rfl
  · split
    · rfl
    · rcases finishFrame_swc (calCounted s r) with e | ⟨_, e⟩ <;> rw [e]

/-- Settles O28: the deciding frame's operation asks for key 0's selections and so stays; a frame of the calibration becomes the reference, or is counted against it. -/
theorem calibrationDecides : Obligations.CalibrationDecides := by
  refine ⟨fun s op r p hop due hr hp hs => ?_, fun s op r hop cal none => ?_, fun s op r p n hop cal hp hn => ?_⟩
  · have run := exec_calibrationDecision hop due hr hp hs
    obtain ⟨key, session⟩ := decideDirection_notices hop r p rfl
    have begun := decideDirection_blocks hop r p
    generalize s.decideDirection r p = v at run key session begun
    have goesOn : v.tku.op = some { op with selections := op.selections ++ keyZeroSelections s p } := by rw [begun]
    have ht := settle_finishFrame_of_selections goesOn (by simp [keyZeroSelections])
    have kept : v.NoticesKept v.finishFrame.settle := .of_lku (by rw [ht])
    generalize v.finishFrame.settle = t at run ht kept
    have swc : t.swc = v.swc := by rw [ht]
    rw [begun] at swc
    refine ⟨t, _, run, by rw [swc], by rw [swc], by rw [swc], rfl, rfl, rfl, rfl, rfl, rfl, rfl, rfl, rfl,
      decide_eq_true_iff, by rw [swc], by rw [swc], by rw [swc], by rw [swc], by rw [swc],
      fun u pending => by rw [swc, pending], by rw [ht, begun],
      by rw [ht, begun], key.kept kept, ?_,
      _, congrArg (fun x : State => x.tku.op) ht, ?_⟩
    · rw [swc, List.length_append]
      exact session.kept kept
    · exact ⟨rfl, hr, rfl, (List.append_assoc _ [_] _).symm⟩
  · have decided := decideFrame_of_calibrates hop cal r
    rw [calibrate_of_none (s := placed s op r) none] at decided
    have asked : ((gyroMarked (placed s op r) r).takeProvisional (placedOp s op r) r).tku = _ :=
      askSelection_of_op (s := (gyroMarked (placed s op r) r).rebase r) rfl .calibration op.slot
    rw [finishFrame_of_selections (congrArg Tku.op asked) (by simp)] at decided
    rw [decided]
    exact ⟨rfl, congrArg Tku.held asked, rfl, _, rfl, rfl, rfl⟩
  · have decided := decideFrame_of_calibrates hop cal r
    rw [calibrate_of_reference (s := placed s op r) hp] at decided
    have hop' : (calCounted (gyroMarked (placed s op r) r) r).tku.op = some (placedOp s op r) := rfl
    have state : (gyroMarked (placed s op r) r).swc.state = s.swc.state := rfl
    have cfg : (gyroMarked (placed s op r) r).cfg = s.cfg := rfl
    have count : (gyroMarked (placed s op r) r).swc.cal.count + 1 = n := hn.symm
    refine ⟨fun q again => ?_, fun other => ?_⟩
    · rw [judgeCalibration_of_run (s := gyroMarked (placed s op r) r) q again] at decided
      rw [decided, hn]
      exact ⟨⟨_, rfl, rfl⟩, rfl, rfl⟩
    · have cases := judgeCalibration_of_other (s := gyroMarked (placed s op r) r) other
      rw [state, cfg, count] at cases
      refine ⟨?_, fun calibrating full => ?_, fun recalibrating full => ?_, fun short asked free => ?_⟩
      · rw [decided, judgeCalibration_cal_of_other (s := gyroMarked (placed s op r) r) other, hn]; rfl
      · rw [decided, cases, if_pos ⟨calibrating, full⟩]
        exact ⟨_, setStage_of_op hop' _, rfl⟩
      · rw [decided, cases, if_neg (fun h => by rw [recalibrating] at h; exact absurd h.1 (by decide)),
          if_pos ⟨recalibrating, full⟩]
        exact ⟨_, setStage_of_op hop' _, rfl⟩
      · have last := finishFrame_last hop' asked free
        rw [decided, cases, if_neg, if_neg]
        · exact ⟨last.1, last.2.1⟩
        · rintro ⟨e, full⟩
          rcases short with ⟨k, _⟩ | ⟨_, k⟩
          · rw [k] at e; cases e
          · omega
        · rintro ⟨e, full⟩
          rcases short with ⟨_, k⟩ | ⟨k, _⟩
          · omega
          · rw [k] at e; cases e

/-! ### The calibration timeout (05 R92) -/

/-- 05 R92: the old reference's slot given up. -/
def referenceFreed (s : State) : State :=
  match s.swc.cal.provisional with
  | some p => s.freeSlot p
  | none => s

theorem referenceFreed_eq (s : State) : referenceFreed s = { s with igu := (referenceFreed s).igu } := by
  unfold referenceFreed; split <;> rfl

theorem referenceFreed_nextStored (s : State) : (referenceFreed s).igu.nextStored = s.igu.nextStored := by
  unfold referenceFreed; split <;> rfl

theorem recalibrate_eq (s : State) (op : TrackOp) (r : FrameResult) :
    s.recalibrate op r = ((referenceFreed s).takeProvisional op r).enterState .recalibrating := by
  unfold State.recalibrate referenceFreed
  cases s.swc.cal.provisional <;> rfl

/-- 05 R92: what the timeout changes beside its notice. -/
theorem recalibrate_blocks {s : State} {op : TrackOp} (hop : s.tku.op = some op) (r : FrameResult) :
    s.recalibrate op r = { s with
      igu := (referenceFreed s).igu
      tku := { s.tku with
        op := some { op with selections := op.selections ++ [{ kind := .calibration, slot := op.slot }] }
        held := (s.tku.held.1 - r.au, s.tku.held.2 - r.av) }
      swc := { s.swc with cal := { provisional := some op.slot, inliers := r.m }, state := .recalibrating }
      lku := (s.recalibrate op r).lku } := by
  have entered := enterState_eq ((referenceFreed s).takeProvisional op r) .recalibrating
  rw [← recalibrate_eq] at entered
  have base := referenceFreed_eq s
  generalize (s.recalibrate op r).lku = l at entered ⊢
  rw [entered]
  generalize referenceFreed s = x at base ⊢
  generalize x.igu = g at base
  subst base
  unfold State.takeProvisional State.askSelection State.rebase
  simp only [hop, Option.map_some]

/-- 05 R89: the SESSION notice of the timeout. -/
theorem recalibrate_noticed (s : State) (op : TrackOp) (r : FrameResult) :
    s.Noticed (s.recalibrate op r) (.session s.swc.id s.swc.state .recalibrating none s.swc.decided s.swc.keys.length
      s.igu.nextStored) := by
  have noticed := enterState_noticed ((referenceFreed s).takeProvisional op r) .recalibrating
  have stored := referenceFreed_nextStored s
  have base := referenceFreed_eq s
  rw [← recalibrate_eq] at noticed
  generalize s.recalibrate op r = v at noticed
  generalize referenceFreed s = x at base stored noticed
  generalize x.igu = g at base
  subst base
  rw [← stored]
  exact noticed.of_lku rfl

theorem exec_calibrationTimeout {s : State} {op : TrackOp} {r : FrameResult} (hop : s.tku.op = some op)
    (due : op.stage = .calTimeoutDue) (hr : op.result = some r) (hs : s.storing = true) :
    exec .calibrationTimeout s = .next (s.recalibrate op r).finishFrame.settle := by
  show execCalibrationTimeout s = _
  unfold execCalibrationTimeout
  simp only [hop, due, hr]
  exact if_pos hs

/-- Settles O29: the selection asked for keeps the operation, so that the command ends with the new reference alone. -/
theorem calibrationTimesOut : Obligations.CalibrationTimesOut := by
  intro s op r hop due hr hs
  have run := exec_calibrationTimeout hop due hr hs
  have noticed := recalibrate_noticed s op r
  have begun := recalibrate_blocks hop r
  generalize s.recalibrate op r = v at run noticed begun
  have goesOn : v.tku.op = some { op with selections := op.selections ++ [{ kind := .calibration, slot := op.slot }] } := by
    rw [begun]
  have ht := settle_finishFrame_of_selections goesOn (by simp)
  generalize v.finishFrame.settle = t at run ht
  have swc : t.swc = v.swc := by rw [ht]
  have igu : t.igu = (referenceFreed s).igu := by rw [ht, begun]
  rw [begun] at swc
  refine ⟨t, run, by rw [swc], by rw [swc], by rw [ht, begun], fun p hp => ?_, fun none => ?_,
    ⟨_, congrArg (fun x : State => x.tku.op) ht, rfl, rfl, rfl⟩, noticed.kept (.of_lku (by rw [ht]))⟩
  · rw [igu]; unfold referenceFreed; rw [hp]; rfl
  · rw [igu]; unfold referenceFreed; rw [none]

end Sys2Proof.Proofs
end

section
/-! The taking of a key k ≥ 1 (04 R71 to R74, R77, R78): its record, what every such key changes, how the command goes on from it, and the settled O32. -/
namespace Sys2Proof.Proofs
open Sys2Proof.Machine

/-! ### The record (04 R61, R63) -/

theorem source_of_plain {kind : KeyKind} (h : kind = .normal ∨ kind = .forced) (c : ConfClass) :
    kind.source c = if c = .good then .image else .blend := by
  rcases h with rfl | rfl <;> cases c <;> rfl

theorem source_bridged (c : ConfClass) : KeyKind.bridged.source c = .bridged := by cases c <;> rfl

theorem source_closure (c : ConfClass) : KeyKind.closure.source c = .closure := by cases c <;> rfl

theorem keyRecordOf_forced (s : State) (slot : Fin 8) (pos : Int × Int) (r : FrameResult) (kind : KeyKind) :
    (s.keyRecordOf slot pos r kind).flags.forced = true ↔ kind = .forced := decide_eq_true_iff

theorem keyRecordOf_weak (s : State) (slot : Fin 8) (pos : Int × Int) (r : FrameResult) (kind : KeyKind) :
    (s.keyRecordOf slot pos r kind).flags.weak = true ↔ r.lock ≠ .locked := decide_eq_true_iff

/-- 04 R64: a key but for a CLOSURE key lies at its frame's position. -/
theorem keyRecordOf_of_frame (s : State) (slot : Fin 8) (pos : Int × Int) (r : FrameResult) {kind : KeyKind}
    (h : kind ≠ .closure) :
    (s.keyRecordOf slot pos r kind).v = pos.2 ∧ (s.keyRecordOf slot pos r kind).inliers = r.m :=
  ⟨if_neg h, if_neg h⟩

/-- 04 R78: a CLOSURE key is lined up with key 0 in the cross axis. -/
theorem keyRecordOf_of_closure (s : State) (slot : Fin 8) (pos : Int × Int) {r : FrameResult} {c : Consensus} {ecu ecv : Int}
    (hc : r.closure = some c) (est : c.est = some (ecu, ecv)) :
    (s.keyRecordOf slot pos r .closure).v = -(16 * (s.cfg.mrows : Int)) + 4 * ecv
      ∧ (s.keyRecordOf slot pos r .closure).inliers = c.m := by
  unfold State.keyRecordOf
  simp only [hc, est, Option.getD_some, if_true]
  exact ⟨rfl, trivial⟩

/-! ### What every key changes (04 R72 steps 1, 5 and 7) -/

/-- From `s` to `t` key `k` is taken: its record, its seam job, its KEY notice, and the two counts cleared. -/
structure KeyRecorded (s t : State) (k : KeyRecord) : Prop where
  keys : t.swc.keys = s.swc.keys ++ [k]
  queue : t.smu.queue = s.smu.queue ++ [.ordinary k.index]
  count : t.swc.framesPerKey = 0
  mark : t.swc.gyroSinceKey = false
  noticed : s.Noticed t (.key s.swc.id k.index k.stored k.u k.v (placeU k.u) (placeV k.v) k.advance k.source k.flags
    k.inliers s.swc.framesPerKey)

theorem recordKey_recorded (s : State) (k : KeyRecord) : KeyRecorded s (s.recordKey k) k := by
  obtain ⟨swc, queue⟩ := recordKey_effect s k
  exact ⟨by rw [swc], queue, by rw [swc], by rw [swc], recordKey_noticed s k⟩

/-- What follows the taking of a key leaves it taken. -/
theorem KeyRecorded.kept {s t u : State} {k : KeyRecord} (h : KeyRecorded s t k) (notices : t.NoticesKept u)
    (keys : u.swc.keys = t.swc.keys) (count : u.swc.framesPerKey = t.swc.framesPerKey)
    (mark : u.swc.gyroSinceKey = t.swc.gyroSinceKey) (smu : u.smu = t.smu) : KeyRecorded s u k :=
  ⟨keys.trans h.keys, by rw [smu]; exact h.queue, count.trans h.count, mark.trans h.mark, h.noticed.kept notices⟩

theorem KeyRecorded.judged {s t u : State} {k : KeyRecord} (h : KeyRecorded s t k) (j : SweepJudged t u) :
    KeyRecorded s u k :=
  h.kept j.notices j.keys (by rw [j.swc]) (by rw [j.swc]) j.smu

/-- 01 R12: of SWC the end of a frame changes the frame kept as LAST alone. -/
theorem finishFrame_swc_eq (s : State) : s.finishFrame.swc = { s.swc with lastResult := s.finishFrame.swc.lastResult } := by
  rcases finishFrame_swc s with e | ⟨_, e⟩ <;> rw [e]

theorem KeyRecorded.finished {s t : State} {k : KeyRecord} (h : KeyRecorded s t k) : KeyRecorded s t.finishFrame k := by
  have swc := finishFrame_swc_eq t
  exact h.kept (finishFrame_notices t) (by rw [swc]) (by rw [swc]) (by rw [swc]) ((finishFrame_frame t).smu (by decide))

/-- 05 R100: of SWC the end of a command changes the session state and the tail-key decision alone. -/
theorem settle_swc_eq (s : State) :
    s.settle.swc = { s.swc with state := s.settle.swc.state, tail := s.settle.swc.tail } := by
  rcases settle_swc s with e | ⟨_, e⟩ | ⟨_, _, e⟩ <;> rw [e]

theorem KeyRecorded.settled {s t : State} {k : KeyRecord} (h : KeyRecorded s t k) : KeyRecorded s t.settle k :=
  h.kept (settle_notices t) (settle_keys t) (by rw [settle_swc_eq]) (by rw [settle_swc_eq]) (settle_smu t)

/-! ### A key taken in a storing state (04 R72, R74) -/

/-- 04 R72, R74: how the decision goes on from a key taken in a storing state. -/
def afterKey (v : State) (op : TrackOp) (r : FrameResult) (k : KeyRecord) : State :=
  if k.index = 63 then v.setStage .keyLimitDue else v.paceStep op r

/-- The sweep is judged behind the key, and the operation, with the key's selection, goes on. -/
theorem afterKey_cases {v : State} {o : TrackOp} (h : v.tku.op = some o) (asked : o.selections ≠ []) (op : TrackOp)
    (r : FrameResult) (k : KeyRecord) : ∃ w st, SweepJudged v w
      ∧ afterKey v op r k = { w with tku.op := some { o with stage := st } } ∧ (k.index = 63 → st = .keyLimitDue) := by
  have staged {w : State} (hw : w.tku.op = some o) (st : TrackStage) :
      w.setStage st = { w with tku.op := some { o with stage := st } } := by
    unfold State.setStage; rw [hw]; rfl
  unfold afterKey
  split
  · exact ⟨v, .keyLimitDue, .refl v, staged h _, fun _ => rfl⟩
  · next less =>
    obtain ⟨w, judged, ends⟩ := paceStep_cases v op r
    have hw : w.tku.op = some o := by rw [judged.tku]; exact h
    rcases ends with e | e | e
    · exact ⟨w, _, judged, e.trans (staged hw _), fun limit => absurd limit less⟩
    · exact ⟨w, _, judged, e.trans (staged hw _), fun limit => absurd limit less⟩
    · exact ⟨w, _, judged, e.trans (finishFrame_of_selections hw asked), fun limit => absurd limit less⟩

theorem afterKey_of_limit {k : KeyRecord} (h : k.index = 63) (v : State) (op : TrackOp) (r : FrameResult) :
    afterKey v op r k = v.setStage .keyLimitDue := if_pos h

theorem afterKey_of_less {k : KeyRecord} (h : k.index ≠ 63) (v : State) (op : TrackOp) (r : FrameResult) :
    afterKey v op r k = v.paceStep op r := if_neg h

theorem takeTracked_of_storing {s : State} {op : TrackOp} (hop : s.tku.op = some op) (hs : s.storing = true) {kind : KeyKind}
    (hk : kind ≠ .closure) (r : FrameResult) : ∃ v, s.KeyTaken v op r (s.keyRecordOf op.slot op.position r kind)
      ∧ s.takeTracked op r kind = afterKey v op r (s.keyRecordOf op.slot op.position r kind)
      ∧ KeyRecorded s v (s.keyRecordOf op.slot op.position r kind) := by
  obtain ⟨v, taken, e, noticed⟩ := takeTracked_storing s op r kind _ hop hs hk rfl
  have swc := congrArg State.swc taken.1
  exact ⟨v, taken, e, by rw [swc], taken.2.1, by rw [swc], by rw [swc], noticed⟩

theorem KeyRecorded.continued {s v : State} {k : KeyRecord} (h : KeyRecorded s v k) (op : TrackOp) (r : FrameResult) :
    KeyRecorded s (afterKey v op r k) k := by
  unfold afterKey
  split
  · exact h.kept (.of_lku rfl) rfl rfl rfl rfl
  · obtain ⟨keys, _, count, mark, _, _, smu⟩ := paceStep_keeps v op r
    exact h.kept (paceStep_notices v op r) keys count mark smu

/-- 04 R72 step 3: the operation with its key's selection asked for. -/
def leadingAsked (op : TrackOp) : TrackOp :=
  { op with selections := op.selections ++ [{ kind := .leading, slot := op.slot }] }

/-- 04 R72, 02 R23: the command that takes a key in a storing state goes on with the key's selection asked for. -/
theorem afterKey_settled {s v : State} {op : TrackOp} {r : FrameResult} {k : KeyRecord} (taken : s.KeyTaken v op r k) :
    ∃ st, (k.index = 63 → st = .keyLimitDue)
      ∧ (afterKey v op r k).settle.tku = { s.tku with
          op := some { leadingAsked op with stage := st }
          held := (s.tku.held.1 - r.au, s.tku.held.2 - r.av) }
      ∧ (afterKey v op r k).settle.swc.pendingTunables = none
      ∧ (afterKey v op r k).settle.swc.config = (match s.swc.pendingTunables with
          | some u => s.swc.config.map (fun c => c.tune u)
          | none => s.swc.config)
      ∧ ∀ i, s.slotState i = .tracking → (afterKey v op r k).settle.slotState i = .tracking := by
  obtain ⟨w, st, judged, e, limit⟩ := afterKey_cases (o := leadingAsked op)
    (congrArg (fun x : State => x.tku.op) taken.1) (by simp [leadingAsked]) op r k
  have settled := settle_of_op (s := afterKey v op r k) (congrArg (fun x : State => x.tku.op) e)
  have tku := congrArg State.tku taken.1
  have swc := congrArg State.swc taken.1
  have igu := congrArg State.igu taken.1
  generalize (afterKey v op r k).settle = t at settled
  rw [settled, e]
  refine ⟨st, limit, ?_, ?_, ?_, fun i h => judged.tracking i ?_⟩
  · exact congrArg (fun x : Tku => { x with op := some { leadingAsked op with stage := st } }) (judged.tku.trans tku)
  · exact (congrArg Swc.pendingTunables judged.swc).trans (congrArg Swc.pendingTunables swc)
  · exact (congrArg Swc.config judged.swc).trans (congrArg Swc.config swc)
  · unfold State.slotState
    rw [igu]
    exact h

/-! ### A CLOSURE key, or a key taken in FINISHING (04 R74, R78) -/

/-- 08 R148: a CLOSURE key taken and the closure-pending mark cleared. -/
def closureTaken (s : State) (op : TrackOp) (r : FrameResult) : State :=
  { s.recordKey (s.keyRecordOf op.slot op.position r .closure) with swc.closurePending := false }

theorem closureTaken_swc (s : State) (op : TrackOp) (r : FrameResult) : (closureTaken s op r).swc = { s.swc with
    keys := s.swc.keys ++ [s.keyRecordOf op.slot op.position r .closure], framesPerKey := 0, gyroSinceKey := false
    closurePending := false } := by
  unfold closureTaken
  rw [recordKey_eq]

theorem closureTaken_storing (s : State) (op : TrackOp) (r : FrameResult) : (closureTaken s op r).storing = s.storing := by
  unfold State.storing
  rw [closureTaken_swc]

/-- 04 R74, R78: steps 1, 5 and 7 alone, and with a CLOSURE key the end of the sweep. -/
def recordedOnly (s : State) (op : TrackOp) (r : FrameResult) (kind : KeyKind) : State :=
  if kind = .closure then (closureTaken s op r).endSweep .closed
  else s.recordKey (s.keyRecordOf op.slot op.position r kind)

theorem takeTracked_of_recordedOnly {s : State} {kind : KeyKind} (h : s.storing = false ∨ kind = .closure) (op : TrackOp)
    (r : FrameResult) : s.takeTracked op r kind = (recordedOnly s op r kind).finishFrame := by
  unfold State.takeTracked recordedOnly
  dsimp only
  by_cases hk : kind = .closure
  · subst hk; rfl
  · rw [if_neg hk, if_neg hk, if_neg (by rw [h.resolve_right hk]; decide)]

theorem recordedOnly_recorded (s : State) (op : TrackOp) (r : FrameResult) (kind : KeyKind) :
    KeyRecorded s (recordedOnly s op r kind) (s.keyRecordOf op.slot op.position r kind) := by
  have recorded := recordKey_recorded s (s.keyRecordOf op.slot op.position r kind)
  unfold recordedOnly
  split
  · next hk =>
    subst hk
    have cleared : KeyRecorded s (closureTaken s op r) _ := recorded.kept (.of_lku rfl) rfl rfl rfl rfl
    exact cleared.judged (endSweep_judged _ .closed)
  · exact recorded

/-- What such a key leaves of TKU and of the tunables. -/
theorem recordedOnly_keeps (s : State) (op : TrackOp) (r : FrameResult) (kind : KeyKind) :
    (recordedOnly s op r kind).tku = s.tku
      ∧ (recordedOnly s op r kind).swc.pendingTunables = s.swc.pendingTunables
      ∧ (recordedOnly s op r kind).swc.config = s.swc.config := by
  unfold recordedOnly
  split
  · have judged := endSweep_judged (closureTaken s op r) .closed
    rw [judged.tku, judged.swc, closureTaken_swc]
    refine ⟨?_, rfl, rfl⟩
    unfold closureTaken
    rw [recordKey_eq]
  · rw [recordKey_eq]
    exact ⟨rfl, rfl, rfl⟩

theorem recordedOnly_endCause {s : State} (hs : s.storing = false) (op : TrackOp) (r : FrameResult) (kind : KeyKind) :
    (recordedOnly s op r kind).swc.endCause = s.swc.endCause := by
  unfold recordedOnly
  split
  · rw [endSweep_of_not_storing ((closureTaken_storing s op r).trans hs), closureTaken_swc]
  · rw [recordKey_eq]

/-- 08 R148: the taking of a CLOSURE key clears the closure-pending mark. -/
theorem recordedOnly_closurePending (s : State) (op : TrackOp) (r : FrameResult) :
    (recordedOnly s op r .closure).swc.closurePending = false := by
  show ((closureTaken s op r).endSweep .closed).swc.closurePending = false
  rw [(endSweep_judged _ _).swc, closureTaken_swc]

/-- 08 R148: in a storing state a CLOSURE key ends the sweep with CLOSED, with a SESSION notice behind the KEY notice. -/
theorem recordedOnly_closed {s : State} (hs : s.storing = true) (op : TrackOp) (r : FrameResult) :
    (recordedOnly s op r .closure).swc.endCause = some .closed
      ∧ (recordedOnly s op r .closure).swc.state = .finishing
      ∧ s.NoticedNext (recordedOnly s op r .closure) (.session s.swc.id s.swc.state .finishing (some .closed)
          s.swc.decided (s.swc.keys.length + 1) s.igu.nextStored) := by
  have storing := (closureTaken_storing s op r).trans hs
  have key : (closureTaken s op r).lku = _ := recordKey_lku s (s.keyRecordOf op.slot op.position r .closure)
  have igu : (closureTaken s op r).igu = s.igu := by unfold closureTaken; rw [recordKey_eq]
  refine ⟨endSweep_endCause storing .closed, endSweep_state storing .closed, ?_⟩
  have next := (notify_noticedNext key _).kept (.of_lku (endSweep_lku storing .closed))
  rw [closureTaken_swc, igu, List.length_append] at next
  exact next

/-- 01 R12: with nothing to select the end of such a decision makes the frame's slot KEY. -/
theorem KeyRecorded.finished_key {s u : State} {k : KeyRecord} (h : KeyRecorded s u k) {op : TrackOp}
    (hop : u.tku.op = some op) (none : op.selections = []) (slot : k.slot = some op.slot) :
    u.finishFrame.slotState op.slot = .key ∧ u.finishFrame.tku.op = Option.none := by
  refine finishFrame_key hop none ((heldAsKey_iff u op.slot).mpr (.inr ⟨k, ?_, slot⟩))
  rw [h.keys]
  exact List.mem_append_right _ (List.mem_singleton_self k)

/-- 04 R72: whatever its kind and the session state, a key is recorded. -/
theorem takeTracked_recorded {s : State} {op : TrackOp} (hop : s.tku.op = some op) (r : FrameResult) (kind : KeyKind) :
    KeyRecorded s (s.takeTracked op r kind) (s.keyRecordOf op.slot op.position r kind) := by
  by_cases only : s.storing = false ∨ kind = .closure
  · rw [takeTracked_of_recordedOnly only]
    exact (recordedOnly_recorded s op r kind).finished
  · obtain ⟨storing, hk⟩ := not_or.mp only
    obtain ⟨v, _, e, recorded⟩ := takeTracked_of_storing hop (Bool.eq_true_of_not_eq_false storing) hk r
    rw [e]
    exact recorded.continued op r

/-! ### TAKE_KEY (04 R71, R77) -/

theorem exec_takeKey {s : State} {op : TrackOp} {r : FrameResult} {kind : KeyKind} (hop : s.tku.op = some op)
    (waiting : op.stage = .keyWaiting kind) (hr : op.result = some r) (resources : s.keyResources = true) :
    exec .takeKey s = .next (s.takeTracked op r kind).settle := by
  show execTakeKey s = _
  unfold execTakeKey
  rw [if_pos resources]
  simp only [hop, waiting, hr]

theorem exec_takeKey_of_tail {s : State} {i : Fin 8} {r : FrameResult} (idle : s.tku.op = none)
    (waiting : s.swc.tail = .waiting) (last : s.firstIn .last = some i) (hr : s.swc.lastResult = some r)
    (resources : s.keyResources = true) : exec .takeKey s = .next (s.takeTail i r).settle := by
  show execTakeKey s = _
  unfold execTakeKey
  rw [if_pos resources]
  simp only [idle, waiting, last, hr]

/-- 04 R77: the TAIL key is recorded like any other, and no pending set is applied. -/
theorem takeTail_recorded (s : State) (i : Fin 8) (r : FrameResult) : KeyRecorded s (s.takeTail i r) (s.tailRecord i r)
    ∧ (s.takeTail i r).slotState i = .key ∧ (s.takeTail i r).swc.tail = .made ∧ (s.takeTail i r).swc.pendingTunables = s.swc.pendingTunables
    ∧ (s.takeTail i r).swc.config = s.swc.config := by
  have recorded := recordKey_recorded s (s.tailRecord i r)
  have pending : (s.recordKey (s.tailRecord i r)).swc.pendingTunables = s.swc.pendingTunables := by rw [recordKey_eq]
  have config : (s.recordKey (s.tailRecord i r)).swc.config = s.swc.config := by rw [recordKey_eq]
  unfold State.takeTail
  generalize s.recordKey (s.tailRecord i r) = u at recorded pending config
  have slot := slotState_moveToKey u i
  have moved := moveToKey_frame u i
  have lku := moved.lku (by decide)
  have swc := moved.swc (by decide)
  have smu := moved.smu (by decide)
  generalize u.moveToKey i = v at slot lku swc smu
  refine ⟨recorded.kept (.of_lku lku) ?_ ?_ ?_ smu, slot, rfl, ?_, ?_⟩
  · rw [← swc]
  · rw [← swc]
  · rw [← swc]
  · rw [← pending, ← swc]
  · rw [← config, ← swc]

/-- Settles O32: a waiting key is recorded, then in a storing state the decision goes on, else the frame is done; a TAIL key is recorded and its slot moved. -/
theorem waitingKeyTaken : Obligations.WaitingKeyTaken := by
  refine ⟨fun s op r kind hop waiting hr resources keyed => ?_, fun s i r idle waiting last hr resources keyed => ?_⟩
  · have run := exec_takeKey hop waiting hr resources
    obtain ⟨keys, queue, count, mark, noticed⟩ := (takeTracked_recorded hop r kind).settled
    refine ⟨_, _, run, keys, rfl, rfl, rfl, rfl, rfl, rfl, keyRecordOf_of_frame s _ _ r, ?_, ?_, ?_, ?_,
      keyRecordOf_forced s _ _ r kind, keyRecordOf_weak s _ _ r kind, queue, count, mark, noticed, ?_, ?_, ?_, ?_⟩
    · rintro rfl c ecu ecv hc est
      exact keyRecordOf_of_closure s _ _ hc est
    · rintro rfl
      exact source_bridged r.cls
    · rintro rfl
      exact source_closure r.cls
    · exact fun plain => source_of_plain plain r.cls
    · intro storing hk
      obtain ⟨v, taken, e, _⟩ := takeTracked_of_storing hop storing hk r
      obtain ⟨st, limit, tku, pending, config, tracking⟩ := afterKey_settled taken
      rw [e] at run ⊢
      refine ⟨by rw [tku], pending, fun u hu => by rw [config, hu], fun hu => by rw [config, hu], ⟨v, taken, ?_, ?_⟩,
        tracking _, _, congrArg Tku.op tku, rfl, rfl, limit⟩
      · intro h
        rw [run, afterKey_of_limit h]
      · intro h
        rw [run, afterKey_of_less h]
    · intro only
      have recorded := recordedOnly_recorded s op r kind
      obtain ⟨tku, pending, config⟩ := recordedOnly_keeps s op r kind
      rw [takeTracked_of_recordedOnly only] at keys ⊢
      generalize recordedOnly s op r kind = u at recorded tku pending config keys
      have swc := finishFrame_swc_eq u
      have more : u.finishFrame.swc.keys ≠ [] := by rw [← settle_keys, keys]; simp
      refine ⟨by rw [settle_tku, finishFrame_tku, tku], by rw [settle_swc_eq, swc, pending],
        by rw [settle_swc_eq, swc, config], fun none => ?_⟩
      have key := recorded.finished_key (by rw [tku, hop]) none rfl
      unfold State.slotState at *
      rw [settle_igu more, settle_tku]
      exact key
    · intro storing
      rw [takeTracked_of_recordedOnly (.inl storing), settle_endCause, finishFrame_swc_eq, recordedOnly_endCause storing]
    · rintro rfl
      have pending := recordedOnly_closurePending s op r
      have closed (storing : s.storing = true) := recordedOnly_closed storing op r
      rw [takeTracked_of_recordedOnly (.inr rfl)]
      generalize recordedOnly s op r .closure = u at pending closed
      have swc := finishFrame_swc_eq u
      refine ⟨by rw [settle_swc_eq, swc, pending], fun storing => ?_⟩
      obtain ⟨cause, state, session⟩ := closed storing
      refine ⟨by rw [settle_endCause, swc, cause], settle_finishing (by rw [swc, state]), ?_⟩
      exact session.kept ((finishFrame_notices u).trans (settle_notices _))
  · have run := exec_takeKey_of_tail idle waiting last hr resources
    obtain ⟨recorded, slot, made, pending, config⟩ := takeTail_recorded s i r
    have more : (s.takeTail i r).swc.keys ≠ [] := by rw [recorded.keys]; simp
    obtain ⟨keys, queue, count, mark, noticed⟩ := recorded.settled
    refine ⟨_, _, run, keys, rfl, rfl, rfl, rfl, rfl, rfl, rfl, rfl, rfl, keyRecordOf_weak s i (s.positionOf r) r .normal, rfl, ?_, ?_,
      queue, count, mark, ?_, ?_, noticed⟩
    · unfold State.slotState at *
      rw [settle_igu more]
      exact slot
    · rcases settle_swc (s.takeTail i r) with e | ⟨_, e⟩ | ⟨_, _, e⟩ <;> rw [e]
      · exact made
      · exact made
    · rw [settle_swc_eq, pending]
    · rw [settle_swc_eq, config]

end Sys2Proof.Proofs
end

section
/-! The end of a search (03 R41 to R47) and SWC's decision on a frame result (04 R66 to R72, 05 R94, R98), and the settled O24. -/
namespace Sys2Proof.Proofs
open Sys2Proof.Machine

/-! ### The consensus (03 R41 to R44, 02 R38) -/

/-- 03 R41: the report of the search on the main set. -/
def mainReport (s : State) (op : TrackOp) : List (Option PatchOutcome) := (s.searchView op false).report s.tku.mainSet

/-- 03 R41: the report of the search on the closure set. -/
def closureReport (s : State) (op : TrackOp) : List (Option PatchOutcome) := (s.searchView op true).report s.tku.closureSet

/-- 03 R43, R44: the operation with its consensus and its result used. -/
def measuredOp (s : State) (op : TrackOp) : TrackOp :=
  { op with
    main := consensusOf (mainReport s op)
    used := (resultUsed (consensusOf (mainReport s op)) op.pu op.pv).1
    source := (resultUsed (consensusOf (mainReport s op)) op.pu op.pv).2
    closure := if op.cpred.isSome then some (consensusOf (closureReport s op)) else op.closure }

/-- 02 R38: the sets with their misses counted. -/
def missesCounted (s : State) (op : TrackOp) : State :=
  { s with tku := { s.tku with
      mainSet := (missCount s.tku.mainSet (mainReport s op)).1
      closureSet := if op.cpred.isSome then (missCount s.tku.closureSet (closureReport s op)).1 else s.tku.closureSet } }

/-- 02 R38: the third misses of the frame, of the main set and then of the closure set. -/
def thirdMisses (s : State) (op : TrackOp) : List (Bool × Nat) :=
  (missCount s.tku.mainSet (mainReport s op)).2.map (fun id => (false, id))
    ++ (if op.cpred.isSome then (missCount s.tku.closureSet (closureReport s op)).2.map (fun id => (true, id)) else [])

theorem formConsensus_of_clean {s : State} {op : TrackOp} (h : op.rd.failed = []) :
    s.formConsensus op = (missesCounted s op, measuredOp s op, thirdMisses s op) := by
  unfold State.formConsensus missesCounted measuredOp thirdMisses
  rw [if_pos h]
  cases op.cpred with
  | none => simp only [Option.isSome_none, Bool.false_eq_true, if_false, List.append_nil]; rfl
  | some p => simp only [Option.isSome_some, if_true]; rfl

/-! ### From the misses to SWC's decision (03 R47) -/

theorem lockDue_stage {c : SessionConfig} {l : Lock} {good : Bool} {st : TrackStage} (h : lockDue c l good = some st) :
    st = .lockedDue ∨ st = .lostDue := by
  unfold lockDue at h
  split at h
  case h_1 | h_2 =>
    split at h
    · exact .inl (Option.some.inj h).symm
    · cases h
  case h_3 =>
    split at h
    · exact .inr (Option.some.inj h).symm
    · cases h
  all_goals cases h

theorem afterMisses_of_due {s : State} {op : TrackOp} {st : TrackStage}
    (h : lockDue s.cfg s.tku.lock (decide (op.main.cls = .good)) = some st) :
    (s.afterMisses op).tku.op = some { op with stage := st } := by
  rcases afterMisses_cases s op _ _ rfl rfl with ⟨st', due, e⟩ | ⟨none, _⟩
  · rw [h] at due
    rw [e, Option.some.inj due]
    exact setStage_of_op rfl _
  · rw [h] at none; cases none

theorem afterMisses_of_none {s : State} {op : TrackOp}
    (h : lockDue s.cfg s.tku.lock (decide (op.main.cls = .good)) = none) : s.afterMisses op
      = (lockNoticed (s.motionStep op) op (lockAfter s.tku.lock (decide (op.main.cls = .good)))).frameResult op := by
  rcases afterMisses_cases s op _ _ rfl rfl with ⟨_, due, _⟩ | ⟨_, e⟩
  · rw [h] at due; cases due
  · exact e

/-- 03 R58: a change of lock state that the table does not list on its own is noticed before the decision. -/
theorem afterMisses_noticed {s : State} {op : TrackOp} {l : Lock}
    (none : lockDue s.cfg s.tku.lock (decide (op.main.cls = .good)) = none)
    (hl : lockAfter s.tku.lock (decide (op.main.cls = .good)) = l) (changed : l.state ≠ s.tku.lock.state) :
    s.Noticed (s.afterMisses op) (.track s.swc.id (s.storedOf op.slot) s.tku.lock.state l.state
      op.main.cls op.main.m op.main.n (s.radiusFor l.state)) := by
  rw [afterMisses_of_none none, hl]
  have noticed := notifyTrack_noticed (s.motionStep op) op l s.tku.lock.state
  have taken : lockNoticed (s.motionStep op) op l
      = (locked (s.motionStep op) op l).notifyTrack op s.tku.lock.state := if_neg changed
  rw [← taken] at noticed
  have same : (s.motionStep op).Noticed _ (.track s.swc.id (s.storedOf op.slot) s.tku.lock.state l.state
    op.main.cls op.main.m op.main.n (s.radiusFor l.state)) := noticed
  exact (same.kept (frameResult_decides _ op).notices).of_lku rfl

/-- 03 R47 stage 7: with no step of the table due SWC decides on the frame's result. -/
theorem afterMisses_eq_decideFrame {s : State} {op : TrackOp}
    (none : lockDue s.cfg s.tku.lock (decide (op.main.cls = .good)) = none) : ∃ w, w.swc = s.swc ∧ w.igu = s.igu
      ∧ w.tku = { s.tku with
          step := stepAfter s op, held := op.used, op := some op
          lock := lockAfter s.tku.lock (decide (op.main.cls = .good)) }
      ∧ s.afterMisses op = (withResult w op).decideFrame (resultOf w op) := by
  refine ⟨_, ?_, ?_, ?_, (afterMisses_of_none none).trans (frameResult_eq _ op)⟩ <;> rw [lockNoticed_eq] <;> rfl

theorem exec_searchComplete_of_clean {s : State} {op : TrackOp} (hop : s.tku.op = some op) (search : op.stage = .searching)
    (reads : s.nextSearchRead = none) (clean : op.rd.failed = []) : exec .searchComplete s
      = if thirdMisses s op = [] then .next ((missesCounted s op).afterMisses (measuredOp s op)).settle
        else .next ({ missesCounted s op with tku.op := some { measuredOp s op with
          stage := .patchesDue (thirdMisses s op) } } : State).settle := by
  rw [exec_searchComplete_of_made hop search reads, formConsensus_of_clean clean]

/-- 02 R38: with a third miss the frame waits for PATCH_LOST, its sets counted. -/
theorem searchComplete_of_losses {s : State} {op : TrackOp} (hop : s.tku.op = some op) (search : op.stage = .searching)
    (reads : s.nextSearchRead = none) (clean : op.rd.failed = []) (lost : thirdMisses s op ≠ []) : ∃ t,
      exec .searchComplete s = .next t
        ∧ t.tku.mainSet = (missesCounted s op).tku.mainSet ∧ t.tku.closureSet = (missesCounted s op).tku.closureSet
        ∧ t = { s with
            tku := { s.tku with
              mainSet := t.tku.mainSet
              closureSet := t.tku.closureSet
              op := some { measuredOp s op with stage := .patchesDue (thirdMisses s op) } }
            grant := t.grant } := by
  have run := exec_searchComplete_of_clean hop search reads clean
  rw [if_neg lost] at run
  have settled := settle_of_op (s := { missesCounted s op with tku.op := some { measuredOp s op with
    stage := .patchesDue (thirdMisses s op) } }) rfl
  generalize State.settle _ = t at run settled
  have main : t.tku.mainSet = (missesCounted s op).tku.mainSet := by rw [settled]
  have closure : t.tku.closureSet = (missesCounted s op).tku.closureSet := by rw [settled]
  refine ⟨t, run, main, closure, ?_⟩
  rw [main, closure]
  exact settled

theorem lockDue_of_full_run {c : SessionConfig} {l : Lock} (h : l.state = .acquiring ∨ l.state = .lost)
    (full : c.lockCount ≤ l.goodRun + 1) : lockDue c l true = some .lockedDue := by
  rcases h with h | h <;> simp [lockDue, h, full]

theorem lockDue_of_full_miss_run {c : SessionConfig} {l : Lock} (h : l.state = .coasting)
    (full : c.coastLimit ≤ l.missRun + 1) : lockDue c l false = some .lostDue := by simp [lockDue, h, full]

theorem lockDue_good_coasting {l : Lock} (h : l.state = .coasting) (c : SessionConfig) : lockDue c l true = none := by
  simp [lockDue, h]

theorem lockDue_bad_locked {l : Lock} (h : l.state = .locked) (c : SessionConfig) : lockDue c l false = none := by
  simp [lockDue, h]

theorem lockAfter_good_unlocked {l : Lock} (h : l.state = .acquiring ∨ l.state = .lost) :
    lockAfter l true = { l with goodRun := l.goodRun + 1 } := by rcases h with h | h <;> simp [lockAfter, h]

theorem lockAfter_good_locked {l : Lock} (h : l.state = .locked) : lockAfter l true = l := by simp [lockAfter, h]

theorem lockAfter_good_coasting {l : Lock} (h : l.state = .coasting) :
    lockAfter l true = { l with state := .locked, missRun := 0 } := by simp [lockAfter, h]

theorem lockAfter_bad_unlocked {l : Lock} (h : l.state = .acquiring ∨ l.state = .lost) :
    lockAfter l false = { l with goodRun := 0 } := by rcases h with h | h <;> simp [lockAfter, h]

theorem lockAfter_bad_locked {l : Lock} (h : l.state = .locked) :
    lockAfter l false = { l with state := .coasting, missRun := 1 } := by simp [lockAfter, h]

theorem lockAfter_bad_coasting {l : Lock} (h : l.state = .coasting) :
    lockAfter l false = { l with missRun := l.missRun + 1 } := by simp [lockAfter, h]

/-- 03 R56, R58: the lock detector after a GOOD frame. -/
theorem afterMisses_of_good {s : State} {op : TrackOp} (good : op.main.cls = .good) :
    (s.tku.lock.state = .acquiring ∨ s.tku.lock.state = .lost →
        (s.afterMisses op).tku.lock = { s.tku.lock with goodRun := s.tku.lock.goodRun + 1 }
          ∧ (s.cfg.lockCount ≤ s.tku.lock.goodRun + 1 →
              (s.afterMisses op).tku.op = some { op with stage := .lockedDue }))
      ∧ (s.tku.lock.state = .locked → (s.afterMisses op).tku.lock = s.tku.lock)
      ∧ (s.tku.lock.state = .coasting →
          (s.afterMisses op).tku.lock = { s.tku.lock with state := .locked, missRun := 0 }
            ∧ s.Noticed (s.afterMisses op) (.track s.swc.id (s.storedOf op.slot) .coasting .locked op.main.cls
                op.main.m op.main.n (s.radiusFor .locked))) := by
  have lock : (s.afterMisses op).tku.lock = lockAfter s.tku.lock true := by
    rw [afterMisses_tku, decide_eq_true good]
  refine ⟨fun h => ⟨lock.trans (lockAfter_good_unlocked h), fun full => ?_⟩,
    fun h => lock.trans (lockAfter_good_locked h), fun h => ⟨lock.trans (lockAfter_good_coasting h), ?_⟩⟩
  · apply afterMisses_of_due
    rw [decide_eq_true good, lockDue_of_full_run h full]
  · have none := lockDue_good_coasting h s.cfg
    have after := lockAfter_good_coasting h
    rw [← decide_eq_true good] at none after
    have noticed := afterMisses_noticed none after (by rw [h]; exact nofun)
    rw [h] at noticed
    exact noticed

/-- 03 R56, R58: the lock detector after any other frame. -/
theorem afterMisses_of_not_good {s : State} {op : TrackOp} (bad : op.main.cls ≠ .good) :
    (s.tku.lock.state = .acquiring ∨ s.tku.lock.state = .lost →
        (s.afterMisses op).tku.lock = { s.tku.lock with goodRun := 0 })
      ∧ (s.tku.lock.state = .locked →
          (s.afterMisses op).tku.lock = { s.tku.lock with state := .coasting, missRun := 1 }
            ∧ s.Noticed (s.afterMisses op) (.track s.swc.id (s.storedOf op.slot) .locked .coasting op.main.cls
                op.main.m op.main.n (s.radiusFor .coasting)))
      ∧ (s.tku.lock.state = .coasting →
          (s.afterMisses op).tku.lock = { s.tku.lock with missRun := s.tku.lock.missRun + 1 }
            ∧ (s.cfg.coastLimit ≤ s.tku.lock.missRun + 1 →
                (s.afterMisses op).tku.op = some { op with stage := .lostDue })) := by
  have lock : (s.afterMisses op).tku.lock = lockAfter s.tku.lock false := by
    rw [afterMisses_tku, decide_eq_false bad]
  refine ⟨fun h => lock.trans (lockAfter_bad_unlocked h), fun h => ⟨lock.trans (lockAfter_bad_locked h), ?_⟩,
    fun h => ⟨lock.trans (lockAfter_bad_coasting h), fun full => ?_⟩⟩
  · have none := lockDue_bad_locked h s.cfg
    have after := lockAfter_bad_locked h
    rw [← decide_eq_false bad] at none after
    have noticed := afterMisses_noticed none after (by rw [h]; exact nofun)
    rw [h] at noticed
    exact noticed
  · apply afterMisses_of_due
    rw [decide_eq_false bad, lockDue_of_full_miss_run h full]

/-- 03 R47: a frame that waits for no step of the lock detector has none due. -/
theorem lockDue_none_of_op {s : State} {op : TrackOp}
    (locked : (s.afterMisses op).tku.op ≠ some { op with stage := .lockedDue })
    (lost : (s.afterMisses op).tku.op ≠ some { op with stage := .lostDue }) :
    lockDue s.cfg s.tku.lock (decide (op.main.cls = .good)) = none := by
  refine Option.eq_none_iff_forall_not_mem.mpr fun st due => ?_
  rcases lockDue_stage due with rfl | rfl
  · exact locked (afterMisses_of_due due)
  · exact lost (afterMisses_of_due due)

/-! ### The key tests (04 R68, R69) -/

/-- 04 R68: the normal test. -/
def NormalTest (s : State) (r : FrameResult) : Prop :=
  (r.cls = .good ∨ r.cls = .weak) ∧ r.lock ≠ .lost ∧ s.cfg.atAdv ≤ s.sgn * r.au

/-- 04 R68: the forced test. -/
def ForcedTest (s : State) (r : FrameResult) : Prop :=
  (r.cls = .good ∨ r.cls = .weak) ∧ r.inView < 3 ∧ s.cfg.atAdv / 2 ≤ s.sgn * r.au

/-- 04 R69: the bridged test. -/
def BridgedTest (s : State) (r : FrameResult) : Prop :=
  r.lock = .lost ∧ s.cfg.gyroUse = true ∧ s.swc.gyroSinceKey = true ∧ s.cfg.atAdv ≤ s.sgn * r.au
    ∧ s.lastKey.source ≠ .bridged

/-- 04 R68, R69: the first test that holds names the kind of the key. -/
theorem keyTests_cases (s : State) (r : FrameResult) :
    NormalTest s r ∧ s.keyTests r = some .normal
      ∨ ¬ NormalTest s r ∧ ForcedTest s r ∧ s.keyTests r = some .forced
      ∨ ¬ NormalTest s r ∧ ¬ ForcedTest s r ∧ BridgedTest s r ∧ s.keyTests r = some .bridged
      ∨ ¬ NormalTest s r ∧ ¬ ForcedTest s r ∧ ¬ BridgedTest s r ∧ s.keyTests r = none := by
  unfold State.keyTests State.advanceOf
  dsimp only
  split
  · next normal =>
    simp only [Bool.and_eq_true, decide_eq_true_eq] at normal
    exact .inl ⟨normal, rfl⟩
  · next normal =>
    simp only [Bool.and_eq_true, decide_eq_true_eq] at normal
    refine .inr ?_
    split
    · next forced =>
      simp only [Bool.and_eq_true, decide_eq_true_eq] at forced
      exact .inl ⟨normal, forced, rfl⟩
    · next forced =>
      simp only [Bool.and_eq_true, decide_eq_true_eq] at forced
      refine .inr ?_
      split
      · next bridged =>
        simp only [Bool.and_eq_true, decide_eq_true_eq] at bridged
        obtain ⟨⟨⟨lost, ahead, plain⟩, gyro⟩, mark⟩ := bridged
        exact .inl ⟨normal, forced, ⟨lost, gyro, mark, ahead, plain⟩, rfl⟩
      · next bridged =>
        simp only [Bool.and_eq_true, decide_eq_true_eq] at bridged
        exact .inr ⟨normal, forced, fun ⟨lost, gyro, mark, ahead, plain⟩ => bridged ⟨⟨⟨lost, ahead, plain⟩, gyro⟩, mark⟩, rfl⟩

theorem keyTests_normal (s : State) (r : FrameResult) : s.keyTests r = some .normal ↔ NormalTest s r := by
  rcases keyTests_cases s r with ⟨n, e⟩ | ⟨n, _, e⟩ | ⟨n, _, _, e⟩ | ⟨n, _, _, e⟩ <;> simp [e, n]

theorem keyTests_forced (s : State) (r : FrameResult) :
    s.keyTests r = some .forced ↔ s.keyTests r ≠ some .normal ∧ ForcedTest s r := by
  rcases keyTests_cases s r with ⟨_, e⟩ | ⟨_, f, e⟩ | ⟨_, f, _, e⟩ | ⟨_, f, _, e⟩ <;> rw [e]
  · exact ⟨nofun, fun h => absurd rfl h.1⟩
  · exact ⟨fun _ => ⟨nofun, f⟩, fun _ => rfl⟩
  · exact ⟨nofun, fun h => absurd h.2 f⟩
  · exact ⟨nofun, fun h => absurd h.2 f⟩

theorem keyTests_bridged (s : State) (r : FrameResult) : s.keyTests r = some .bridged
    ↔ s.keyTests r ≠ some .normal ∧ s.keyTests r ≠ some .forced ∧ BridgedTest s r := by
  rcases keyTests_cases s r with ⟨_, e⟩ | ⟨_, _, e⟩ | ⟨_, _, b, e⟩ | ⟨_, _, b, e⟩ <;> rw [e]
  · exact ⟨nofun, fun h => absurd rfl h.1⟩
  · exact ⟨nofun, fun h => absurd rfl h.2.1⟩
  · exact ⟨fun _ => ⟨nofun, nofun, b⟩, fun _ => rfl⟩
  · exact ⟨nofun, fun h => absurd h.2.2 b⟩

theorem keyTests_ne_closure (s : State) (r : FrameResult) : s.keyTests r ≠ some .closure := by
  rcases keyTests_cases s r with ⟨_, e⟩ | ⟨_, _, e⟩ | ⟨_, _, _, e⟩ | ⟨_, _, _, e⟩ <;> simp [e]

/-! ### The steps of the decision (04 R66 to R71) -/

section
variable {s : State} {op : TrackOp} {r : FrameResult}

theorem judgeKey_of_reversed (h : s.swc.highWater.getD op.position.1 - op.position.1 > 4 * s.cfg.wf) :
    s.judgeKey op r = (s.endSweep .reversed).finishFrame := if_pos h

theorem judgeKey_of_gap (steady : s.swc.highWater.getD op.position.1 - op.position.1 ≤ 4 * s.cfg.wf)
    (h : s.sgn * r.au > s.cfg.amax) : s.judgeKey op r = (s.endSweep .gap).finishFrame :=
  (if_neg (not_lt.mpr steady)).trans (if_pos h)

/-- 04 R66: a frame that passes no key test goes on with step 5. -/
theorem judgeKey_of_no_key (steady : s.swc.highWater.getD op.position.1 - op.position.1 ≤ 4 * s.cfg.wf)
    (near : s.sgn * r.au ≤ s.cfg.amax) (h : s.keyTests r = none) : s.judgeKey op r = s.paceStep op r := by
  refine (if_neg (not_lt.mpr steady)).trans ((if_neg (not_lt.mpr near)).trans ?_)
  rw [h]

/-- 04 R66, R70: a key is tried against the canvas before it is taken or waits. -/
theorem judgeKey_of_key (steady : s.swc.highWater.getD op.position.1 - op.position.1 ≤ 4 * s.cfg.wf)
    (near : s.sgn * r.au ≤ s.cfg.amax) {kind : KeyKind} (h : s.keyTests r = some kind) : s.judgeKey op r
      = if placeU op.position.1 + s.cfg.wf > 128 * s.cfg.maxStrips then (s.endSweep .limit).finishFrame
        else s.takeOrWait op r kind := by
  refine (if_neg (not_lt.mpr steady)).trans ((if_neg (not_lt.mpr near)).trans ?_)
  rw [h]

/-- 04 R70: a key that the canvas has no room for ends the sweep. -/
theorem judgeKey_of_limit (steady : s.swc.highWater.getD op.position.1 - op.position.1 ≤ 4 * s.cfg.wf)
    (near : s.sgn * r.au ≤ s.cfg.amax) {kind : KeyKind} (h : s.keyTests r = some kind)
    (wide : placeU op.position.1 + s.cfg.wf > 128 * s.cfg.maxStrips) :
    s.judgeKey op r = (s.endSweep .limit).finishFrame := (judgeKey_of_key steady near h).trans (if_pos wide)

/-- 04 R71: a key with its resources is taken at once. -/
theorem judgeKey_of_resources (steady : s.swc.highWater.getD op.position.1 - op.position.1 ≤ 4 * s.cfg.wf)
    (near : s.sgn * r.au ≤ s.cfg.amax) {kind : KeyKind} (h : s.keyTests r = some kind)
    (fits : placeU op.position.1 + s.cfg.wf ≤ 128 * s.cfg.maxStrips) (resources : s.keyResources = true) :
    s.judgeKey op r = s.takeTracked op r kind :=
  (judgeKey_of_key steady near h).trans ((if_neg (not_lt.mpr fits)).trans (if_pos resources))

/-- 04 R71: a key without its resources waits. -/
theorem judgeKey_of_no_resources (steady : s.swc.highWater.getD op.position.1 - op.position.1 ≤ 4 * s.cfg.wf)
    (near : s.sgn * r.au ≤ s.cfg.amax) {kind : KeyKind} (h : s.keyTests r = some kind)
    (fits : placeU op.position.1 + s.cfg.wf ≤ 128 * s.cfg.maxStrips) (missing : s.keyResources = false) :
    s.judgeKey op r = s.setStage (.keyWaiting kind) :=
  (judgeKey_of_key steady near h).trans ((if_neg (not_lt.mpr fits)).trans (if_neg (by rw [missing]; decide)))

/-- 05 R98, 01 R12: an end cause that a frame brings ends the sweep, and the frame itself becomes LAST. -/
theorem endSweep_finishFrame (hop : s.tku.op = some op) (storing : s.storing = true) (c : EndCause) :
    (s.endSweep c).finishFrame.swc.endCause = some c ∧ (s.endSweep c).finishFrame.swc.state = .finishing
      ∧ (s.endSweep c).finishFrame.swc.keys = s.swc.keys
      ∧ (op.selections = [] → s.heldAsKey op.slot = false →
          (s.endSweep c).finishFrame.slotState op.slot = .last) := by
  have judged := endSweep_judged s c
  refine ⟨by rw [finishFrame_endCause, endSweep_endCause storing], by rw [finishFrame_state, endSweep_state storing],
    by rw [finishFrame_keys, judged.keys], fun none free => ?_⟩
  have other : (s.endSweep c).heldAsKey op.slot = false :=
    Bool.eq_false_iff.mpr fun h => Bool.eq_false_iff.mp free (judged.held _ h)
  exact (finishFrame_last (by rw [judged.tku]; exact hop) none other).1

/-- 04 R66 step 5, 01 R12: a frame with nothing due and nothing to select becomes LAST with its result kept. -/
theorem paceStep_ends (hop : s.tku.op = some op) (q : TrackOp) :
    (∀ o, (s.paceStep q r).tku.op = some o →
        o.stage = .paceDue ∨ o.stage = .stalledDue ∨ o.stage = .finished ∧ op.selections ≠ [])
      ∧ (op.selections = [] → s.heldAsKey op.slot = false → (s.paceStep q r).tku.op = none →
          (s.paceStep q r).slotState op.slot = .last ∧ (s.paceStep q r).swc.lastResult = op.result) := by
  obtain ⟨v, judged, ends⟩ := paceStep_cases s q r
  have hv : v.tku.op = some op := by rw [judged.tku]; exact hop
  rcases ends.op hv with ⟨st, goesOn, due, _⟩ | ⟨none, e⟩
  · refine ⟨fun o ho => ?_, fun _ _ ended => ?_⟩
    · rw [goesOn] at ho
      cases ho
      exact due
    · rw [goesOn] at ended
      cases ended
  · rw [e]
    refine ⟨fun o ho => ?_, fun _ free _ => ?_⟩
    · rw [finishFrame_of_no_selections hv none, closeFrame_op] at ho
      cases ho
    · have other : v.heldAsKey op.slot = false :=
        Bool.eq_false_iff.mpr fun h => Bool.eq_false_iff.mp free (judged.held _ h)
      obtain ⟨last, _, kept⟩ := finishFrame_last hv none other
      exact ⟨last, kept⟩

end

/-! ### The closure consensus offered first (08 R147) -/

theorem keyDecision_of_not_closing {s : State} (h : s.swc.state ≠ .closing) (op : TrackOp) (r : FrameResult) :
    s.keyDecision op r = s.judgeKey op r := if_neg h

/-- 08 R147: a qualifying frame makes the run 1, and the frame is decided as any other. -/
theorem keyDecision_of_offered {s : State} {op : TrackOp} {r : FrameResult} (closing : s.swc.state = .closing)
    (offered : 0 ≤ s.sgn * r.au ∧ s.closureMeasure op.position r ≠ none) (first : s.cvm.closureRun ≠ 1) :
    s.keyDecision op r = (s.setClosureRun 1).judgeKey op r := by
  obtain ⟨⟨um, vres⟩, measure⟩ := Option.ne_none_iff_exists'.mp offered.2
  unfold State.keyDecision State.advanceOf
  rw [if_pos closing, if_pos offered.1]
  simp only [measure]
  exact if_neg first

/-- 08 R147: any other frame clears the run, and is decided as any other. -/
theorem keyDecision_of_not_offered {s : State} {op : TrackOp} {r : FrameResult} (closing : s.swc.state = .closing)
    (other : ¬ (0 ≤ s.sgn * r.au ∧ s.closureMeasure op.position r ≠ none)) :
    s.keyDecision op r = (s.setClosureRun 0).judgeKey op r := by
  unfold State.keyDecision State.advanceOf
  rw [if_pos closing]
  split
  · next ahead =>
    have measure : s.closureMeasure op.position r = none := of_not_not fun h => other ⟨ahead, h⟩
    simp only [measure]
  · rfl

/-! ### The decision in a sweep (04 R66) -/

/-- 04 R66, R69, 08 R147: the state that the steps of the decision judge: the frame placed and counted, the closure run set. -/
def weighed (s : State) (op : TrackOp) (r : FrameResult) (run : Nat) : State :=
  { s with
    tku.op := some { op with position := s.positionOf r }
    swc.framesPerKey := min 65535 (s.swc.framesPerKey + 1)
    swc.gyroSinceKey := s.swc.gyroSinceKey || r.gyroMark
    cvm.closureRun := run }

theorem decideFrame_eq_judgeKey {s : State} {op : TrackOp} {r : FrameResult} {offered : Prop} {run : Nat}
    (hop : s.tku.op = some op) (keyed : s.swc.keys ≠ [])
    (ho : offered ↔ 0 ≤ s.sgn * r.au ∧ s.closureMeasure (s.positionOf r) r ≠ none)
    (sweep : s.swc.state = .sweeping ∨ s.swc.state = .closing ∧ (offered → s.cvm.closureRun ≠ 1))
    (sweeping : s.swc.state = .sweeping → run = s.cvm.closureRun)
    (closing : s.swc.state = .closing → (offered → run = 1) ∧ (¬ offered → run = 0)) :
    s.decideFrame r = (weighed s op r run).judgeKey (placedOp s op r) r := by
  rcases sweep with h | ⟨h, first⟩
  · rw [decideFrame_of_sweep hop (.inl ⟨h, keyed⟩), sweeping h]
    exact keyDecision_of_not_closing (by rw [show ((placed s op r).countFrame r).swc.state = _ from h]; decide) _ _
  · rw [decideFrame_of_sweep hop (.inr h)]
    by_cases o : offered
    · rw [(closing h).1 o]
      exact keyDecision_of_offered (s := (placed s op r).countFrame r) (op := placedOp s op r) h (ho.mp o) (first o)
    · rw [(closing h).2 o]
      exact keyDecision_of_not_offered (s := (placed s op r).countFrame r) (op := placedOp s op r) h (mt ho.mpr o)

/-- 04 R72: a key taken at once, from the state that the decision judges. -/
theorem takeTracked_weighed (s : State) (op : TrackOp) (r : FrameResult) (run : Nat) {kind : KeyKind}
    (storing : s.storing = true) (hk : kind ≠ .closure) {k : KeyRecord}
    (rec : k = (weighed s op r run).keyRecordOf op.slot (s.positionOf r) r kind) : ∃ v,
      ({ s with cvm.closureRun := run } : State).KeyTaken v (placedOp s op r) r k
        ∧ (weighed s op r run).takeTracked (placedOp s op r) r kind = afterKey v (placedOp s op r) r k
        ∧ KeyRecorded (weighed s op r run) ((weighed s op r run).takeTracked (placedOp s op r) r kind) k := by
  have recorded := takeTracked_recorded (s := weighed s op r run) (op := placedOp s op r) rfl r kind
  obtain ⟨v, taken, e, _⟩ := takeTracked_of_storing (s := weighed s op r run) (op := placedOp s op r) rfl storing hk r
  subst rec
  exact ⟨v, taken, e, recorded⟩

theorem key_source_of_sweep {kind : KeyKind} (hk : kind ≠ .closure) (c : ConfClass) :
    kind.source c = if kind = .bridged then .bridged else if c = .good then .image else .blend := by
  cases kind with
  | normal => exact source_of_plain (.inl rfl) c
  | forced => exact source_of_plain (.inr rfl) c
  | bridged => exact source_bridged c
  | closure => exact absurd rfl hk

/-! ### The first frame of a forced direction (05 R94) -/

/-- 05 R94, 04 R75: the first stored frame as key 0 at the high-water mark. -/
def firstTaken (s : State) (op : TrackOp) (r : FrameResult) : State :=
  { (((placed s op r).countFrame r).takeKeyZero op.slot r.m r.lock).rebase r with swc.highWater := some 0 }

theorem firstTaken_facts (s : State) (op : TrackOp) (r : FrameResult) :
    (firstTaken s op r).tku.op = some { placedOp s op r with selections := op.selections ++ keyZeroSelections s op.slot }
      ∧ (firstTaken s op r).swc.keys = s.swc.keys ++ [s.keyZeroRecord op.slot r.m r.lock]
      ∧ (firstTaken s op r).swc.highWater = some 0 ∧ (firstTaken s op r).swc.state = s.swc.state
      ∧ (firstTaken s op r).igu = s.igu := by
  have key := takeKeyZero_eq (s := (placed s op r).countFrame r) (o := placedOp s op r) rfl op.slot r.m r.lock
  unfold firstTaken
  generalize ((placed s op r).countFrame r).takeKeyZero op.slot r.m r.lock = u at key
  generalize u.lku = l at key
  subst key
  exact ⟨rfl, rfl, rfl, rfl, rfl⟩

theorem decideFrame_of_firstTaken {s : State} {op : TrackOp} (hop : s.tku.op = some op) (sweeping : s.swc.state = .sweeping)
    (keys : s.swc.keys = []) (r : FrameResult) : s.decideFrame r = { firstTaken s op r with
      tku.op := some { placedOp s op r with
        selections := op.selections ++ keyZeroSelections s op.slot, stage := .finished } } := by
  rw [decideFrame_of_first hop sweeping keys]
  exact finishFrame_of_selections (firstTaken_facts s op r).1 (by simp [keyZeroSelections])

/-! ### The settled O24 -/

/-- Settles O24: the miss counting leaves a frame to PATCH_LOST, to a full run of the lock detector, or to SWC; in a sweep SWC judges one state, in which each step of R66 either decides or passes on. -/
theorem searchEnds : Obligations.SearchEnds := by
  refine ⟨?_, fun s r => ?_, ?_, fun s op r hop sweeping keys => ?_, fun s op r hop finishing none free => ?_⟩
  · intro s op report creport c used losses i hop search reads clean hreport hcreport hc hused hlosses hi
    subst hlosses hused hc hreport hcreport hi
    by_cases empty : thirdMisses s op = []
    · have run := exec_searchComplete_of_clean hop search reads clean
      rw [if_pos empty] at run
      have tku := afterMisses_tku (missesCounted s op) (measuredOp s op)
      have held := afterMisses_held (missesCounted s op) (measuredOp s op)
      refine ⟨_, measuredOp s op, run, rfl, ?_, ?_, fun lost => absurd empty lost, fun _ => ?_⟩
      · rw [settle_tku, tku]; rfl
      · rw [settle_tku, tku]; rfl
      · simp only [settle_tku]
        refine ⟨by rw [tku]; rfl, held, fun good => ?_, fun bad => ?_, fun locked lost => ?_⟩
        · obtain ⟨unlocked, locked, coasting⟩ :=
            afterMisses_of_good (s := missesCounted s op) (op := measuredOp s op) good
          refine ⟨unlocked, locked, fun h => ⟨(coasting h).1, ?_⟩⟩
          exact ((coasting h).2.kept (settle_notices _)).of_lku rfl
        · obtain ⟨unlocked, locked, coasting⟩ :=
            afterMisses_of_not_good (s := missesCounted s op) (op := measuredOp s op) bad
          refine ⟨unlocked, fun h => ⟨(locked h).1, ?_⟩, coasting⟩
          exact ((locked h).2.kept (settle_notices _)).of_lku rfl
        · obtain ⟨w, swc, igu, wtku, decides⟩ := afterMisses_eq_decideFrame (lockDue_none_of_op locked lost)
          rw [decides] at run
          refine ⟨withResult w (measuredOp s op), resultOf w (measuredOp s op), run, rfl, swc, igu, ?_, ?_⟩
          · show w.tku.held = _
            rw [wtku]; rfl
          · unfold resultOf State.storedOf
            rw [igu, wtku, tku]; rfl
    · obtain ⟨t, run, main, closure, e⟩ := searchComplete_of_losses hop search reads clean empty
      exact ⟨t, measuredOp s op, run, rfl, main, closure, fun _ => e, fun none => absurd none empty⟩
  · exact ⟨keyTests_normal s r, keyTests_forced s r, keyTests_bridged s r, keyTests_ne_closure s r⟩
  · intro s op r u m offered run hop keyed ho sweep sweeping closing hu hm
    have judged := decideFrame_eq_judgeKey hop keyed ho sweep sweeping closing
    have storing : s.storing = true := by
      unfold State.storing
      rcases sweep with h | ⟨h, _⟩ <;> rw [h] <;> rfl
    have ended (c : EndCause) := endSweep_finishFrame (s := weighed s op r run) (op := placedOp s op r) rfl storing c
    subst hm hu
    refine ⟨fun back => ?_, fun steady far => ?_,
      fun steady near kind test => ⟨fun wide => ?_, fun fits ready => ?_, fun fits short => ?_⟩,
      fun steady near test => ?_⟩
    · rw [judged.trans (judgeKey_of_reversed (s := weighed s op r run) (op := placedOp s op r) back)]
      exact ended .reversed
    · rw [judged.trans (judgeKey_of_gap (s := weighed s op r run) (op := placedOp s op r) steady far)]
      exact ended .gap
    · rw [judged.trans (judgeKey_of_limit (s := weighed s op r run) (op := placedOp s op r) steady near test wide)]
      exact ended .limit
    · have hk : kind ≠ .closure := by
        rintro rfl
        exact keyTests_ne_closure _ _ test
      obtain ⟨v, taken, e, recorded⟩ := takeTracked_weighed s op r run storing hk rfl
      rw [judged.trans (judgeKey_of_resources (s := weighed s op r run) (op := placedOp s op r) steady near
        test fits ready)]
      obtain ⟨along, inliers⟩ := keyRecordOf_of_frame (weighed s op r run) op.slot (s.positionOf r) r hk
      refine ⟨_, recorded.keys, rfl, rfl, rfl, rfl, along, rfl, inliers, rfl, key_source_of_sweep hk r.cls,
        keyRecordOf_forced _ _ _ r kind, keyRecordOf_weak _ _ _ r kind, recorded.noticed.of_lku rfl, v, taken, ?_, ?_⟩
      · intro h
        rw [e, afterKey_of_limit h]
      · intro h
        rw [e, afterKey_of_less h]
        rfl
    · rw [judged.trans (judgeKey_of_no_resources (s := weighed s op r run) (op := placedOp s op r) steady near
        test fits short)]
      exact ⟨rfl, rfl, _, rfl, rfl⟩
    · obtain ⟨keys, decided, _⟩ := paceStep_keeps (weighed s op r run) (placedOp s op r) r
      obtain ⟨due, last⟩ := paceStep_ends (s := weighed s op r run) (op := placedOp s op r) (r := r) rfl (placedOp s op r)
      rw [judged.trans (judgeKey_of_no_key (s := weighed s op r run) (op := placedOp s op r) steady near test)]
      exact ⟨keys, decided, rfl, due, last⟩
  · obtain ⟨_, added, mark, state, igu⟩ := firstTaken_facts s op r
    rw [decideFrame_of_firstTaken hop sweeping keys]
    refine ⟨s.keyZeroRecord op.slot r.m r.lock, ?_, rfl, rfl, rfl, rfl, rfl, rfl, rfl, mark, state.trans sweeping, igu,
      _, rfl, rfl, ?_⟩
    · rw [keys] at added; exact added
    · exact (List.append_assoc _ [_] _).symm
  · have outside : s.storing = false := by unfold State.storing; rw [finishing]; rfl
    rw [decideFrame_of_not_storing hop outside]
    obtain ⟨last, idle, kept⟩ := finishFrame_last (placed_op s op r) none free
    exact ⟨last, idle, kept, finishFrame_keys _⟩

end Sys2Proof.Proofs
end

section
/-! What a command of a unit keeps: every command that is neither a request nor a reset nor one of the link's or of the store's keeps what the shared operations keep (`Kept`). -/
namespace Sys2Proof.Proofs
open Sys2Proof.Machine

/-! ### The states that an answer goes on to -/

/-- Every state that an answer goes on to has a property. -/
def LeadsTo (a : Answer) (P : State → Prop) : Prop := ∀ t, a = .next t → P t

theorem LeadsTo.next {P : State → Prop} {t : State} (h : P t) : LeadsTo (.next t) P := by
  rintro _ ⟨⟩; exact h

theorem LeadsTo.mono {P Q : State → Prop} {a : Answer} (h : LeadsTo a P) (sub : ∀ t, P t → Q t) : LeadsTo a Q :=
  fun t e => sub t (h t e)

theorem LeadsTo.stays (s : State) : LeadsTo (.next s) (Kept s) := .next (.refl s)

/-- A request row goes on to what its handler gives, or stays where it is. -/
theorem execute_leadsTo {P : State → Prop} {s : State} {type : Byte} {handle : List Byte → State} (stays : P s)
    (h : ∀ body, P (handle body)) : LeadsTo (s.execute type handle) P := by
  rcases execute_cases s type handle with ⟨_, body, _, _, e⟩ | e <;> rw [e]
  · exact .next (h body)
  · exact .next stays

/-! ### Frame ingest (01) -/

theorem execHeaderLine_kept (fv : Bool) (beats : List Beat) (s : State) : LeadsTo (execHeaderLine fv beats s) (Kept s) := by
  have level := fipFv_kept s fv
  unfold execHeaderLine
  split
  · exact .next ((level.trans (abortFilling_kept _)).trans (frameStart_kept _ _)).settled
  · exact .next level

theorem execPictureLine_kept (fv : Bool) (tag : Beat) (beats : List Beat) (s : State) :
    LeadsTo (execPictureLine fv tag beats s) (Kept s) := by
  have level := fipFv_kept s fv
  unfold execPictureLine
  dsimp only
  split
  · exact .next level
  · split
    · exact .next level
    · split
      · exact .next (level.trans (abortFilling_kept _)).settled
      · exact .next (level.trans (takeLine_kept _ _ _ _)).settled

theorem execFrameEnd_kept (s : State) : LeadsTo (execFrameEnd s) (Kept s) := by
  have level := fipFv_kept s false
  unfold execFrameEnd
  dsimp only
  split
  · exact .next level
  · next i hi =>
    split
    · exact .next ((level.trans (endUnaccepted_kept _ i)).trans (countGeometry_kept _)).settled
    · split
      · next r hr =>
        have work : s.igu.slots[i].state.inWork := by
          rw [show s.igu.slots[i].state = .filling from slotState_of_firstIn hi]; trivial
        exact .next (level.trans (acceptFrame_kept _ i r work hr)).settled
      · exact .next level

theorem execInputFault_kept (s : State) : LeadsTo (execInputFault s) (Kept s) := by
  have taken := faultTaken_kept s
  unfold execInputFault
  split
  · dsimp only
    split
    · exact .next taken
    · exact .next (taken.trans (endSweep_kept _ _)).settled
  · exact .stays s

theorem execPrepareComplete_kept (s : State) : LeadsTo (execPrepareComplete s) (Kept s) := by
  rcases execPrepareComplete_cases s with e | ⟨p, _, e⟩ <;> rw [e]
  · exact .stays s
  · exact .next ((afterPass_kept s p).trans (nextPass_kept _)).settled

/-! ### Tracking (02, 03) -/

theorem putOp_kept (s : State) (o : Option TrackOp) : Kept s { s with tku.op := o } := kept_tku s _ rfl

theorem execTrackStart_kept (s : State) : LeadsTo (execTrackStart s) (Kept s) := by
  unfold execTrackStart
  split
  · exact .next (beginTracking_kept s _).settled
  · exact .stays s

theorem execSearchComplete_kept (s : State) : LeadsTo (execSearchComplete s) (Kept s) := by
  unfold execSearchComplete
  split
  · exact .stays s
  · next op _ =>
    split
    · have formed := formConsensus_kept s op
      dsimp only
      split
      · exact .next (formed.trans (afterMisses_kept _ _)).settled
      · exact .next (formed.trans (putOp_kept _ _)).settled
    · exact .stays s

theorem execPatchLost_kept (s : State) : LeadsTo (execPatchLost s) (Kept s) := by
  unfold execPatchLost
  split
  · exact .stays s
  · next op _ =>
    split
    · exact .next (afterMisses_kept s op).settled
    · next set id _ _ =>
      have lost := losePatch_kept s set id
      dsimp only
      split
      · exact .next (lost.trans (afterMisses_kept _ op)).settled
      · exact .next (lost.trans (putOp_kept _ _))
    · exact .stays s

theorem lockChanged_kept (s : State) (op : TrackOp) (l : Lock) (b : LockState) :
    Kept s (((s.setLock l).notifyTrack op b).frameResult op).settle :=
  (((setLock_kept s l).trans (notifyTrack_kept _ op b)).trans (frameResult_kept _ op)).settled

theorem execTrackLocked_kept (s : State) : LeadsTo (execTrackLocked s) (Kept s) := by
  unfold execTrackLocked
  split
  · exact .stays s
  · split
    · exact .next (lockChanged_kept s _ _ _)
    · exact .stays s

theorem execTrackLost_kept (s : State) : LeadsTo (execTrackLost s) (Kept s) := by
  unfold execTrackLost
  split
  · exact .stays s
  · split
    · exact .next (lockChanged_kept s _ _ _)
    · exact .stays s

theorem execSelectionComplete_kept (s : State) : LeadsTo (execSelectionComplete s) (Kept s) := by
  unfold execSelectionComplete
  split
  · exact .stays s
  · split
    · exact .stays s
    · next sel _ _ =>
      split
      · have replaced := replaceSet_kept s sel.kind (s.selectionView sel).run.set
        dsimp only
        split
        · exact .next (replaced.trans (closeFrame_kept _ _)).settled
        · exact .next (replaced.trans (putOp_kept _ _)).settled
      · exact .stays s

/-! ### SWC's decisions (04, 05, 08) -/

/-- A step that is due once the storing states are left only lets the frame complete (notes/assumptions/10.md). -/
theorem finishFrame_settled (s : State) : LeadsTo (.next s.finishFrame.settle) (Kept s) := .next (finishFrame_kept s).settled

theorem execCalibrationDecision_kept (s : State) : LeadsTo (execCalibrationDecision s) (Kept s) := by
  unfold execCalibrationDecision
  split
  · exact .stays s
  · split
    · split
      · exact .next ((decideDirection_kept s _ _).trans (finishFrame_kept _)).settled
      · exact finishFrame_settled s
    · exact finishFrame_settled s
    · exact .stays s

theorem execCalibrationTimeout_kept (s : State) : LeadsTo (execCalibrationTimeout s) (Kept s) := by
  unfold execCalibrationTimeout
  split
  · exact .stays s
  · split
    · split
      · exact .next ((recalibrate_kept s _ _).trans (finishFrame_kept _)).settled
      · exact finishFrame_settled s
    · exact finishFrame_settled s
    · exact .stays s

theorem execPaceChange_kept (s : State) : LeadsTo (execPaceChange s) (Kept s) := by
  unfold execPaceChange
  split
  · exact .stays s
  · split
    · split
      · exact .next ((changePace_kept s _).trans (stallStep_kept _ _ _)).settled
      · exact finishFrame_settled s
    · exact finishFrame_settled s
    · exact .stays s

theorem execClosureAccepted_kept (s : State) : LeadsTo (execClosureAccepted s) (Kept s) := by
  unfold execClosureAccepted
  split
  · exact .stays s
  · split
    · split
      · exact .next ((acceptClosure_kept s _ _ _).trans (takeOrWait_kept _ _ _ .closure)).settled
      · exact finishFrame_settled s
    · exact finishFrame_settled s
    · exact .stays s

theorem execTakeKey_kept (s : State) : LeadsTo (execTakeKey s) (Kept s) := by
  unfold execTakeKey
  split
  · next resources =>
    have room := keyResources_room resources
    split
    · split
      · exact .next (takeTracked_kept s _ _ _ room).settled
      · exact .stays s
    · split
      · exact .next (takeTail_kept s _ _ room).settled
      · exact .stays s
  · exact .stays s

theorem execTailKeyDecision_kept (s : State) : LeadsTo (execTailKeyDecision s) (Kept s) := by
  unfold execTailKeyDecision
  split
  · exact .next (decideTail_kept s).settled
  · exact .stays s

theorem putMark_kept (s : State) (o : Option Nat) : Kept s { s with blu.mark := o } := kept_blu s _ id

theorem execFinalKeyMark_kept (s : State) : LeadsTo (execFinalKeyMark s) (Kept s) := by
  unfold execFinalKeyMark
  split
  · exact .next (putMark_kept s _).settled
  · exact .stays s

/-! ### Seams, commits and the canvas (06, 07, 08) -/

theorem putSeamRun_kept (s : State) (o : Option SeamRun) : Kept s { s with smu.run := o } := kept_smu s _ id

theorem execSeamJobDone_kept (s : State) : LeadsTo (execSeamJobDone s) (Kept s) := by
  unfold execSeamJobDone
  split
  · next run job rest _ hq =>
    split
    · have written := writeJob_kept s run.rd.failed job
      have queue : (s.writeJob run.rd.failed job).smu.queue = job :: rest := by
        rw [(writeJob_frame s _ job).smu (by decide)]; exact hq
      dsimp only
      split
      · next room => exact .next (written.trans (handCommit_kept _ job rest queue ((commitRoom_iff _).mp room))).settled
      · exact .next (written.trans (putSeamRun_kept _ _)).settled
    · exact .stays s
  · exact .stays s

theorem execClosureJobBegin_kept (s : State) : LeadsTo (execClosureJobBegin s) (Kept s) := by
  unfold execClosureJobBegin
  split
  · split
    · exact .next (putSeamRun_kept s _).settled
    · exact .stays s
  · exact .stays s

theorem execCommitEnter_kept (s : State) : LeadsTo (execCommitEnter s) (Kept s) := by
  unfold execCommitEnter
  split
  · next job rest _ hq =>
    split
    · next held =>
      obtain ⟨_, room⟩ := held
      exact .next (handCommit_kept s job rest hq ((commitRoom_iff s).mp room)).settled
    · exact .stays s
  · exact .stays s

theorem execFinalCommitEnter_kept (s : State) : LeadsTo (execFinalCommitEnter s) (Kept s) := by
  unfold execFinalCommitEnter
  split
  · next due => exact .next (enterCommit_kept s _ (finalCommitDue_room due)).settled
  · exact .stays s

theorem execStripOpenRequest_kept (s : State) : LeadsTo (execStripOpenRequest s) (Kept s) := by
  unfold execStripOpenRequest
  split
  · exact .stays s
  · split
    · exact .next (openStrip_kept s _).settled
    · exact .stays s

theorem execCommitComplete_kept (s : State) : LeadsTo (execCommitComplete s) (Kept s) := by
  unfold execCommitComplete
  split
  · next hq =>
    split
    · exact .next (completeCommit_kept s _ _ _ hq).settled
    · exact .stays s
  · exact .stays s

/-! ### Buffer memory and strip output (09, 10) -/

theorem execMemoryAccessComplete_kept (o : EccOutcome) (s : State) :
    LeadsTo (execMemoryAccessComplete o s) (Kept s) := by
  unfold execMemoryAccessComplete
  split
  · exact .next (arbitrate_kept s)
  · next g _ =>
    split
    · exact .next (((completeAccess_kept s g o).trans (kept_grant _ none)).trans (arbitrate_kept _))
    · exact fun _ e => nomatch e

theorem execTransferStart_kept (s : State) : LeadsTo (execTransferStart s) (Kept s) := by
  unfold execTransferStart
  split
  · exact .stays s
  · split
    · exact .next (startTransfer_kept s _).settled
    · exact .stays s

/-- 09 R155: a line begins while OPU is SENDING, so the levels fit. -/
theorem lineBegun_kept (s : State) (x : Transfer) (line : List Beat) (sending : s.opu.state = .sending) :
    Kept s (({ s with opu.xfer := some x } : State).presentLine line) := by
  have core := (core_opu s { s.opu with xfer := some x } id).trans
    (core_pins _ { s.pins with sopLv := true, sopLine := line, sopBeat := 0 })
  refine .ofCore core (fun ⟨level, _, _⟩ => ⟨level, fun resting => ?_, Nat.zero_le _⟩) rfl rfl
  rcases resting with e | e <;> exact absurd (sending.symm.trans e) (by decide)

theorem execSopLineStart_kept (s : State) : LeadsTo (execSopLineStart s) (Kept s) := by
  unfold execSopLineStart
  split
  · next sending _ =>
    split
    · exact .stays s
    · split
      · exact .next (lineBegun_kept s _ _ sending).settled
      · exact .stays s
  · exact .stays s

theorem execTransferComplete_kept (s : State) : LeadsTo (execTransferComplete s) (Kept s) := by
  unfold execTransferComplete
  split
  · split
    · exact .stays s
    · split
      · split
        · exact .next (transferFailed_kept s _ _).settled
        · exact .next (transferClean_kept s _ _).settled
      · exact .stays s
  · exact .stays s

/-- 09 R160: after an ABORTED trailer OPU is IDLE and both levels are low. -/
theorem cutTrailer_kept (s : State) (x : Transfer) :
    Kept s ((s.presentTrailer x 2).clearTransfer.setOpuState .idle) :=
  .ofCore (((core_pins s _).trans (core_clearTransfer (s.presentTrailer x 2))).trans (core_setOpuState _ .idle))
    (fun _ => ports_low (.inl rfl) rfl rfl (Nat.le_refl _)) rfl rfl

theorem execCutTrailerDone_kept (s : State) : LeadsTo (execCutTrailerDone s) (Kept s) := by
  unfold execCutTrailerDone
  split
  · split
    · exact .next (cutTrailer_kept s _)
    · exact .stays s
  · exact .stays s

/-! ### Every command of a unit -/

/-- The commands of the units: not a request, not a reset, and not one of the link unit's or of the store's. -/
def unitCommand : Instr → Bool
  | .headerLine _ _ | .pictureLine _ _ _ | .frameEnd | .frameAbort | .inputFault | .prepareComplete
  | .trackStart | .searchComplete | .patchLost | .trackLocked | .trackLost | .selectionComplete
  | .calibrationDecision | .calibrationTimeout | .noSweep | .stalled | .keyLimit | .paceChange | .closureAccepted
  | .takeKey | .tailKeyDecision | .finalKeyMark
  | .seamJobDone | .closureJobBegin | .commitEnter | .finalCommitEnter | .stripOpenRequest | .commitComplete
  | .memoryAccessComplete _ | .transferStart | .sopLineStart | .sopRdyChange _ | .transferComplete
  | .cutTrailerDone => true
  | _ => false

theorem exec_kept {c : Instr} (h : unitCommand c = true) (s : State) : LeadsTo (exec c s) (Kept s) := by
  cases c with
  | headerLine fv beats => exact execHeaderLine_kept fv beats s
  | pictureLine fv tag beats => exact execPictureLine_kept fv tag beats s
  | frameEnd => exact execFrameEnd_kept s
  | frameAbort => exact .next (abortFilling_kept s).settled
  | inputFault => exact execInputFault_kept s
  | prepareComplete => exact execPrepareComplete_kept s
  | trackStart => exact execTrackStart_kept s
  | searchComplete => exact execSearchComplete_kept s
  | patchLost => exact execPatchLost_kept s
  | trackLocked => exact execTrackLocked_kept s
  | trackLost => exact execTrackLost_kept s
  | selectionComplete => exact execSelectionComplete_kept s
  | calibrationDecision => exact execCalibrationDecision_kept s
  | calibrationTimeout => exact execCalibrationTimeout_kept s
  | noSweep | stalled | keyLimit => exact .next (endDue_kept s _ _)
  | paceChange => exact execPaceChange_kept s
  | closureAccepted => exact execClosureAccepted_kept s
  | takeKey => exact execTakeKey_kept s
  | tailKeyDecision => exact execTailKeyDecision_kept s
  | finalKeyMark => exact execFinalKeyMark_kept s
  | seamJobDone => exact execSeamJobDone_kept s
  | closureJobBegin => exact execClosureJobBegin_kept s
  | commitEnter => exact execCommitEnter_kept s
  | finalCommitEnter => exact execFinalCommitEnter_kept s
  | stripOpenRequest => exact execStripOpenRequest_kept s
  | commitComplete => exact execCommitComplete_kept s
  | memoryAccessComplete o => exact execMemoryAccessComplete_kept o s
  | transferStart => exact execTransferStart_kept s
  | sopLineStart => exact execSopLineStart_kept s
  | sopRdyChange level => exact .next (kept_pins s _ rfl rfl id)
  | transferComplete => exact execTransferComplete_kept s
  | cutTrailerDone => exact execCutTrailerDone_kept s
  | _ => cases h

end Sys2Proof.Proofs
end

section
/-! What the commands that work on neither the frame ring nor the tracking state leave unchanged: the transport of the link, the queries, TUNE, the requests of the store and the end of a cut-off transfer change no block but those of the model's own table (`touches`). -/
namespace Sys2Proof.Proofs
open Sys2Proof.Machine

/-- A request row changes what its handler changes. -/
theorem execute_outside {l : List Block} {s : State} {type : Byte} {handle : List Byte → State}
    (h : ∀ body, SameOutside l s (handle body)) : LeadsTo (s.execute type handle) (SameOutside l s) :=
  execute_leadsTo SameOutside.rfl' h

theorem answer_outside {l : List Block} (hl : Block.lku ∈ l) (s : State) (b : ReplyBody) : SameOutside l s (s.answer b) :=
  (answer_frame s b).mono (fun _ hb => List.mem_singleton.mp hb ▸ hl)

/-- A request without fields. -/
theorem executeFieldless_outside {l : List Block} (hl : Block.lku ∈ l) {s t : State} {type : Byte}
    (h : SameOutside l s t) : LeadsTo (s.execute type (fun body => s.withoutFields body t)) (SameOutside l s) :=
  execute_outside (fun body => withoutFields_frame body hl h)

/-! ### The end of a cut-off transfer (09 R160) -/

theorem execCutTrailerDone_outside (s : State) : LeadsTo (execCutTrailerDone s) (SameOutside [.pins, .opu] s) := by
  unfold execCutTrailerDone
  split
  · split
    · exact .next (((presentTrailer_frame s _ 2).comp (clearTransfer_frame _) (n := [.pins, .opu]) (by decide)).comp
        (setOpuState_frame _ _) (by decide))
    · exact .next SameOutside.rfl'
  · exact .next SameOutside.rfl'

/-! ### The transport (11 R170, R173) -/

theorem execLinkTransactionStart_outside (s : State) :
    LeadsTo (execLinkTransactionStart s) (SameOutside [.pins, .lku] s) := by
  unfold execLinkTransactionStart
  split
  · exact .next SameOutside.rfl'
  · exact .next ((frame_pins s _).comp (frame_lku _ _) (by decide))

theorem execLinkTransactionEnd_outside (tail : List Byte) (s : State) :
    LeadsTo (execLinkTransactionEnd tail s) (SameOutside [.pins, .lku] s) := by
  have cut : SameOutside [.lku] s (s.receive tail).cutInbound :=
    (receive_frame s tail).comp (cutInbound_frame _) (by decide)
  unfold execLinkTransactionEnd
  split
  · exact .next ((cut.comp (frame_pins _ _) (n := [.pins, .lku]) (by decide)).comp (frame_lku _ _) (by decide))
  · exact .next SameOutside.rfl'

theorem execRequestDispatch_outside (s : State) : LeadsTo (execRequestDispatch s) (SameOutside [.lku] s) := by
  unfold execRequestDispatch
  split
  · exact .next (frame_lku s _)
  · exact .next SameOutside.rfl'

theorem execUnknownType_outside (s : State) : LeadsTo (execUnknownType s) (SameOutside [.lku] s) := by
  unfold execUnknownType
  split
  · exact .next (answer_frame s _)
  · exact .next SameOutside.rfl'

/-! ### Queries and conditions (11 R178 to R182, 04 R79, 05 R105) -/

theorem statusGet_frame (s : State) : SameOutside [.lku] s (s.answer (.status s.statusRecord)).clearEventFlags :=
  (answer_frame s _).comp (frame_lku _ _) (by decide)

theorem faultClear_frame (s : State) (body : List Byte) : SameOutside [.lku] s (s.faultClear body) := by
  unfold State.faultClear
  split
  · exact answer_frame s _
  · split
    · exact answer_frame s _
    · exact (frame_lku s _).comp (answer_frame _ _) (by decide)

theorem keyGet_frame (s : State) (body : List Byte) : SameOutside [.lku] s (s.keyGet body) := by
  unfold State.keyGet
  split
  · exact answer_frame s _
  · split <;> exact answer_frame s _

theorem stripGet_frame (s : State) (body : List Byte) : SameOutside [.lku] s (s.stripGet body) := by
  unfold State.stripGet
  split
  · exact answer_frame s _
  · split <;> exact answer_frame s _

theorem sessionSummary_frame (s : State) : SameOutside [.lku] s s.sessionSummary :=
  .ite (answer_frame s _) (answer_frame s _)

/-! ### TUNE (05 R86) -/

theorem sessionTune_frame (s : State) (body : List Byte) : SameOutside [.swc, .lku] s (s.sessionTune body) := by
  have taken (x : Swc) (b : ReplyBody) : SameOutside [.swc, .lku] s (({ s with swc := x } : State).answer b) :=
    (frame_swc s x).comp (answer_frame _ b) (by decide)
  unfold State.sessionTune
  split
  · exact answer_outside (by decide) s _
  · exact .ite (taken _ _) (.ite (taken _ _) (answer_outside (by decide) s _))

/-! ### The profile store (12) -/

theorem profileRead_frame (s : State) (body : List Byte) : SameOutside [.lku] s (s.profileRead body) := by
  unfold State.profileRead
  split
  · exact answer_frame s _
  · split
    · exact answer_frame s _
    · split <;> exact answer_frame s _

theorem pscAnswered_frame (s : State) (p : Psc) (b : ReplyBody) :
    SameOutside [.psc, .lku] s (({ s with psc := p } : State).answer b) :=
  (frame_psc s p).comp (answer_frame _ b) (by decide)

theorem refused_frame (s : State) (b : ReplyBody) : SameOutside [.psc, .lku] s (s.answer b) :=
  answer_outside (by decide) s b

theorem profileStage_frame (s : State) (body : List Byte) : SameOutside [.psc, .lku] s (s.profileStage body) := by
  unfold State.profileStage
  split
  · exact refused_frame s _
  · split
    · exact refused_frame s _
    · exact pscAnswered_frame s _ _

theorem startBurn_frame (s : State) (job : BurnJob) : SameOutside [.psc, .lku] s (s.startBurn job) :=
  pscAnswered_frame s _ _

theorem profileBurn_frame (s : State) (body : List Byte) : SameOutside [.psc, .lku] s (s.profileBurn body) := by
  unfold State.profileBurn
  split
  · exact refused_frame s _
  · split
    · exact refused_frame s _
    · exact .ite (refused_frame s _) (.ite (refused_frame s _) (.ite (refused_frame s _)
        (.ite (refused_frame s _) (startBurn_frame s _))))

theorem protectionBurn_frame (s : State) (job : BurnJob) : SameOutside [.psc, .lku] s (s.protectionBurn job) :=
  .ite (refused_frame s _) (.ite (refused_frame s _) (.ite (refused_frame s _) (startBurn_frame s job)))

theorem profileProtect_frame (s : State) (body : List Byte) : SameOutside [.psc, .lku] s (s.profileProtect body) := by
  unfold State.profileProtect
  split
  · exact refused_frame s _
  · exact protectionBurn_frame s _

theorem profileReload_frame (s : State) : SameOutside [.psc, .lku] s s.profileReload :=
  .ite (refused_frame s _) (.ite (refused_frame s _) ((load_frame s).comp (answer_frame _ _) (by decide)))

theorem burnMatched_frame (s : State) (job : BurnJob) : SameOutside [.psc, .lku] s (s.burnMatched job) := by
  cases job <;> exact (frame_psc s _).comp (notify_frame _ _) (by decide)

theorem burnFailed_frame (s : State) (job : BurnJob) : SameOutside [.psc, .lku] s (s.burnFailed job) :=
  ((frame_psc s _).comp (setBurnFailed_frame _ true) (n := [.psc, .lku]) (by decide)).comp (notify_frame _ _) (by decide)

theorem profileReadBack_frame (s : State) (job : BurnJob) (slot : Fin 4) (meant f : ProfileFields) (crc : BitVec 16) :
    SameOutside [.psc, .lku] s (s.profileReadBack job slot meant f crc) :=
  .ite (burnMatched_frame s job) ((frame_psc s _).comp (burnFailed_frame _ job) (by decide))

theorem protectionReadBack_frame (s : State) (job : BurnJob) (meant f : ProtectionFields) (crc : BitVec 16) :
    SameOutside [.psc, .lku] s (s.protectionReadBack job meant f crc) :=
  .ite (burnMatched_frame s job) ((frame_psc s _).comp (burnFailed_frame _ job) (by decide))

theorem execBurnComplete_outside (found : ReadBack) (s : State) :
    LeadsTo (execBurnComplete found s) (SameOutside [.psc, .lku] s) := by
  unfold execBurnComplete
  split
  · exact .next SameOutside.rfl'
  · split
    · exact .next (burnMatched_frame s _)
    · exact .next (profileReadBack_frame s _ _ _ _ _)
    · exact .next (protectionReadBack_frame s _ _ _ _)
    · exact .next (protectionReadBack_frame s _ _ _ _)
    all_goals exact .next SameOutside.rfl'

/-! ### Every command that touches neither frame ingest nor tracking -/

/-- A command that by the table touches neither IGU nor TKU changes only what the table says. -/
theorem exec_outside {c : Instr} (igu : Block.igu ∉ touches c) (tku : Block.tku ∉ touches c) (s : State) :
    LeadsTo (exec c s) (SameOutside (touches c) s) := by
  cases c with
  | sopRdyChange level => exact .next (frame_pins s _)
  | cutTrailerDone => exact execCutTrailerDone_outside s
  | linkTransactionStart => exact execLinkTransactionStart_outside s
  | linkTransactionEnd tail => exact execLinkTransactionEnd_outside tail s
  | messageSent => exact .next (receive_frame s _)
  | requestReceived bytes | linkFrameDiscard bytes => exact .next (receive_frame s bytes)
  | requestDispatch => exact execRequestDispatch_outside s
  | unknownType => exact execUnknownType_outside s
  | identGet => exact executeFieldless_outside (by decide) (answer_frame s _)
  | statusGet => exact executeFieldless_outside (by decide) (statusGet_frame s)
  | faultClear => exact execute_outside (faultClear_frame s)
  | sessionTune => exact execute_outside (sessionTune_frame s)
  | sessionSummaryGet => exact executeFieldless_outside (by decide) (sessionSummary_frame s)
  | keyGet => exact execute_outside (keyGet_frame s)
  | stripGet => exact execute_outside (stripGet_frame s)
  | profileRead => exact execute_outside (profileRead_frame s)
  | profileStage => exact execute_outside (profileStage_frame s)
  | profileBurn => exact execute_outside (profileBurn_frame s)
  | profileProtect => exact execute_outside (profileProtect_frame s)
  | profileLock => exact executeFieldless_outside (by decide) (protectionBurn_frame s _)
  | profileReload => exact executeFieldless_outside (by decide) (profileReload_frame s)
  | burnComplete found => exact execBurnComplete_outside found s
  | _ => simp [touches, settleBlocks] at igu tku

end Sys2Proof.Proofs
end

section
/-! The gyro accumulator (03 R48, R49): every command keeps the sums and the snapshots within range, and what GYRO.PUT adds and the requests and resets clear: the settled O6 and O51. -/
namespace Sys2Proof.Proofs
open Sys2Proof.Machine

/-! ### The range is kept -/

/-- From `s` to `t` the range of the gyro sums and of the snapshots is kept. -/
def KeepsGyro (s t : State) : Prop := s.GyroInRange → t.GyroInRange

theorem KeepsGyro.refl (s : State) : KeepsGyro s s := id

theorem KeepsGyro.trans {s t u : State} (h : KeepsGyro s t) (k : KeepsGyro t u) : KeepsGyro s u := k ∘ h

/-- Only the accumulator and the slots matter. -/
theorem KeepsGyro.of_same {s t : State} (gyro : t.tku.gyro = s.tku.gyro) (slots : t.igu.slots = s.igu.slots) :
    KeepsGyro s t := fun h => by
  unfold State.GyroInRange
  rwa [gyro, slots]

theorem KeepsGyro.of_frame {l : List Block} {s t : State} (f : SameOutside l s t) (igu : Block.igu ∉ l)
    (tku : Block.tku ∉ l) : KeepsGyro s t :=
  .of_same (congrArg Tku.gyro (f.tku tku)) (congrArg Igu.slots (f.igu igu))

/-- 03 R48: the accumulator is cleared, and no snapshot is new. -/
theorem KeepsGyro.of_cleared {s t : State} (gyro : t.tku.gyro = {}) (slots : t.igu.slots = s.igu.slots) :
    KeepsGyro s t := fun h => ⟨gyro ▸ Gyro.clear_inRange, slots ▸ h.2⟩

theorem record_reset (j : Fin 8) : (Igu.reset.slots[j]).record = none := by revert j; decide

/-- 03 R48: the accumulator is cleared and every slot is FREE. -/
theorem KeepsGyro.of_reset {s t : State} (gyro : t.tku.gyro = {}) (slots : t.igu.slots = Igu.reset.slots) :
    KeepsGyro s t := fun _ =>
  ⟨gyro ▸ Gyro.clear_inRange, fun j r hr => by
    rw [slots, record_reset j] at hr
    cases hr⟩

theorem answer_keepsGyro (s : State) (b : ReplyBody) : KeepsGyro s (s.answer b) :=
  .of_frame (answer_frame s b) (by decide) (by decide)

theorem withoutFields_keepsGyro {s t : State} (body : List Byte) (h : KeepsGyro s t) :
    KeepsGyro s (s.withoutFields body t) := by
  unfold State.withoutFields
  split
  · exact h
  · exact answer_keepsGyro s _

/-! ### What clears the accumulator (03 R48) -/

theorem start_tku_gyro (s : State) : s.start.tku.gyro = {} := by
  unfold State.start
  rw [(enterState_frame _ _).tku (by decide)]

theorem start_igu_slots (s : State) : s.start.igu.slots = s.igu.slots := by
  unfold State.start
  rw [(enterState_frame _ _).igu (by decide)]

/-- What SESSION.ABORT abandons and ENGINE.RESET clears. -/
theorem engineClears_tku_igu (s : State) : s.engineClears.tku = Tku.reset ∧ s.engineClears.igu = Igu.reset := ⟨rfl, rfl⟩

/-- What pin reset leaves of TKU and of IGU: the load of the shadow changes neither. -/
theorem execPinReset_next (s : State) : LeadsTo (execPinReset s) (fun t => t.tku = Tku.reset ∧ t.igu = Igu.reset) :=
  .next ⟨(load_frame _).tku (by decide), (load_frame _).igu (by decide)⟩

/-! ### Requests that reach frame ingest or tracking, and the resets -/

theorem sessionArm_keepsGyro (s : State) (body : List Byte) : KeepsGyro s (s.sessionArm body) := by
  unfold State.sessionArm
  split
  · exact .refl s
  · split
    · split
      · exact answer_keepsGyro s _
      · exact .of_same rfl rfl
    · exact answer_keepsGyro s _

theorem armed_keepsGyro (s : State) (c : SessionConfig) : KeepsGyro s (s.armed c) := by
  unfold State.armed
  refine KeepsGyro.trans ?_ (answer_keepsGyro _ _)
  refine KeepsGyro.trans ?_ (.of_frame (enterState_frame _ _) (by decide) (by decide))
  exact .of_same rfl rfl

theorem columnMapBuilt_keepsGyro (s : State) : KeepsGyro s s.columnMapBuilt := by
  unfold State.columnMapBuilt
  split
  · split
    · exact armed_keepsGyro s _
    · exact .refl s
  · exact .refl s

theorem sessionStart_keepsGyro (s : State) : KeepsGyro s s.sessionStart := by
  have started : KeepsGyro s s.start := .of_cleared (start_tku_gyro s) (start_igu_slots s)
  unfold State.sessionStart
  split
  · exact started.trans (answer_keepsGyro _ _)
  · exact answer_keepsGyro s _

theorem sessionStop_keepsGyro (s : State) : KeepsGyro s s.sessionStop := by
  unfold State.sessionStop
  split
  · have ended : KeepsGyro s (s.endSweep .userStop) := (endSweep_kept s _).gyro
    exact (ended.trans (answer_keepsGyro _ _)).trans (settle_kept _).gyro
  · exact answer_keepsGyro s _

theorem notifySession_keepsGyro (s : State) (a b : SessionState) : KeepsGyro s (s.notifySession a b) :=
  (notifySession_kept s a b).gyro

theorem sessionAbort_keepsGyro (s : State) : KeepsGyro s s.sessionAbort := by
  have abandoned : KeepsGyro s s.abandon := .of_reset rfl rfl
  unfold State.sessionAbort
  split
  · exact answer_keepsGyro s _
  · exact (abandoned.trans (notifySession_keepsGyro _ _ _)).trans (answer_keepsGyro _ _)

theorem sessionRelease_keepsGyro (s : State) : KeepsGyro s s.sessionRelease := by
  have released : KeepsGyro s s.release := .of_reset rfl rfl
  unfold State.sessionRelease
  split
  · exact (released.trans (notifySession_keepsGyro _ _ _)).trans (answer_keepsGyro _ _)
  · exact answer_keepsGyro s _

/-- 03 R48: the sums that a GYRO.PUT leaves are clamped. -/
theorem gyroPut_keepsGyro (s : State) (body : List Byte) : KeepsGyro s (s.gyroPut body) := by
  have put (yaw pitch : Int) : KeepsGyro s { s with tku.gyro := s.tku.gyro.put yaw pitch } :=
    (kept_gyro s _ (Gyro.put_inRange _ _ _)).gyro
  unfold State.gyroPut
  split
  · exact answer_keepsGyro s _
  · split
    · exact (put _ _).trans (answer_keepsGyro _ _)
    · exact answer_keepsGyro s _

theorem outputResume_keepsGyro (s : State) (action : Option ResumeAction) : KeepsGyro s (s.outputResume action) := by
  have resumed {t : State} (h : KeepsGyro s t) : KeepsGyro s (t.answerCode .ok).settle :=
    (h.trans (answer_keepsGyro t _)).trans (settle_kept _).gyro
  unfold State.outputResume
  split
  · exact answer_keepsGyro s _
  · split
    · next halted =>
      split
      · exact resumed (endHalt_kept s halted).gyro
      · split
        · exact resumed (retryStrip_kept s _ halted).gyro
        · exact resumed (skipStrip_kept s _ halted).gyro
    · exact answer_keepsGyro s _

/-- 09 R159: a row of OUTPUT.RESUME leaves the action of the other row to it. -/
theorem resumeRow_keepsGyro (s : State) (otherRow : Prop) [Decidable otherRow] (action : Option ResumeAction) :
    KeepsGyro s (if otherRow then s else s.outputResume action) := by
  split
  · exact .refl s
  · exact outputResume_keepsGyro s action

theorem engineReset_keepsGyro (s : State) :
    KeepsGyro s (if s.psc.burn.isSome then s.answerCode .busy else s.engineClears.answerCode .ok) := by
  obtain ⟨tku, igu⟩ := engineClears_tku_igu s
  have cleared : KeepsGyro s s.engineClears := .of_reset (congrArg Tku.gyro tku) (congrArg Igu.slots igu)
  split
  · exact answer_keepsGyro s _
  · exact cleared.trans (answer_keepsGyro _ _)

/-! ### Every command -/

theorem execute_keepsGyro {s : State} {type : Byte} {handle : List Byte → State} (h : ∀ body, KeepsGyro s (handle body)) :
    LeadsTo (s.execute type handle) (KeepsGyro s) := execute_leadsTo (KeepsGyro.refl s) h

theorem executeFieldless_keepsGyro {s t : State} {type : Byte} (h : KeepsGyro s t) :
    LeadsTo (s.execute type (fun body => s.withoutFields body t)) (KeepsGyro s) :=
  execute_keepsGyro (fun body => withoutFields_keepsGyro body h)

/-- The units' commands keep the range as their shared operations do, the commands outside IGU and TKU by their frame; the others are the requests above and pin reset. -/
theorem exec_keepsGyro (c : Instr) (s : State) : LeadsTo (exec c s) (KeepsGyro s) := by
  by_cases unit : unitCommand c = true
  · exact (exec_kept unit s).mono (fun _ k => k.gyro)
  by_cases outside : Block.igu ∉ touches c ∧ Block.tku ∉ touches c
  · obtain ⟨igu, tku⟩ := outside
    exact (exec_outside igu tku s).mono (fun _ f => .of_frame f igu tku)
  cases c with
  | sessionArm => exact execute_keepsGyro (sessionArm_keepsGyro s)
  | columnMapBuilt => exact execute_keepsGyro (fun _ => columnMapBuilt_keepsGyro s)
  | sessionStart => exact executeFieldless_keepsGyro (sessionStart_keepsGyro s)
  | sessionStop => exact executeFieldless_keepsGyro (sessionStop_keepsGyro s)
  | sessionAbort => exact executeFieldless_keepsGyro (sessionAbort_keepsGyro s)
  | sessionRelease => exact executeFieldless_keepsGyro (sessionRelease_keepsGyro s)
  | gyroPut => exact execute_keepsGyro (gyroPut_keepsGyro s)
  | outputResumeRetry => exact execute_keepsGyro (fun body => resumeRow_keepsGyro s (resumeBody body = some .skip) _)
  | outputResumeSkip => exact execute_keepsGyro (fun body => resumeRow_keepsGyro s (resumeBody body = some .retry) _)
  | engineReset => exact executeFieldless_keepsGyro (engineReset_keepsGyro s)
  | pinReset =>
    exact (execPinReset_next s).mono (fun _ ⟨tku, igu⟩ => .of_reset (congrArg Tku.gyro tku) (congrArg Igu.slots igu))
  | _ => simp [unitCommand, touches] at unit outside

/-- Settles O6: a step is a command at the front of the queue or a tick of the strip output port. -/
theorem gyroRangeKept : Obligations.GyroRangeKept := by
  intro s t range run
  unfold step at run
  split at run
  · cases run
    exact (tick_kept s).gyro range
  · next c rest _ => exact exec_keepsGyro c { s with pending := rest } t run range

/-! ### GYRO.PUT (03 R48) -/

/-- 11 R171: the increments of a body of two four-byte fields are read back. -/
theorem gyroPutBody_field {yaw pitch : Int} (yawLo : -(2 ^ 31) ≤ yaw) (yawHi : yaw < 2 ^ 31)
    (pitchLo : -(2 ^ 31) ≤ pitch) (pitchHi : pitch < 2 ^ 31) :
    gyroPutBody (field 4 yaw ++ field 4 pitch) = some (yaw, pitch) := by
  have readYaw : fieldInt (field 4 yaw) = yaw := fieldInt_of_range (by omega) (by omega)
  have readPitch : fieldInt (field 4 pitch) = pitch := fieldInt_of_range (by omega) (by omega)
  have first : (field 4 yaw ++ field 4 pitch).take 4 = field 4 yaw := List.take_left' (field_length 4 yaw)
  have second : (field 4 yaw ++ field 4 pitch).drop 4 = field 4 pitch := List.drop_left' (field_length 4 yaw)
  unfold gyroPutBody exactly
  rw [if_pos (by simp), Option.map_some, first, second, readYaw, readPitch]

theorem gyroPut_of_storing {s : State} {tag : Byte} {body : List Byte} {rest : List Request} {yaw pitch : Int}
    (h : s.Executes 0x20#8 tag body rest) (read : gyroPutBody body = some (yaw, pitch)) (storing : s.storing = true) :
    s.gyroPut body = { (s.answeredOnly rest 0xA0#8 tag (.result .ok)) with tku.gyro := s.tku.gyro.put yaw pitch } := by
  unfold State.gyroPut
  rw [read]
  exact (if_pos storing).trans
    (answer_of_requests (s := { s with tku.gyro := s.tku.gyro.put yaw pitch }) h.2 (.result .ok) (by decide))

theorem gyroPut_of_not_storing {s : State} {tag : Byte} {body : List Byte} {rest : List Request} {yaw pitch : Int}
    (h : s.Executes 0x20#8 tag body rest) (read : gyroPutBody body = some (yaw, pitch)) (resting : s.storing = false) :
    s.gyroPut body = s.answeredOnly rest 0xA0#8 tag (.result .ok) := by
  unfold State.gyroPut
  rw [read]
  exact (if_neg (by rw [resting]; decide)).trans (answer_of_requests h.2 _ (by decide))

/-- The accumulator is no part of what an answer changes. -/
theorem answerCode_tku_gyro (s : State) (code : ResultCode) : (s.answerCode code).tku.gyro = s.tku.gyro :=
  congrArg Tku.gyro ((answer_frame s _).tku (by decide))

/-- Settles O51: the body is read back and `Gyro.put` is R48's sum; a clear is the reset value of TKU, or START's own (for ABORT and RELEASE as O54 has it). -/
theorem gyroSumsIncrements : Obligations.GyroSumsIncrements := by
  refine ⟨fun s tag rest yaw pitch yawLo yawHi pitchLo pitchHi h => ?_, fun s tag rest => ⟨?_, ?_, ?_, ?_⟩, fun s => ?_⟩
  · have read := gyroPutBody_field yawLo yawHi pitchLo pitchHi
    have run : exec .gyroPut s = .next _ := execute_of_executes h s.gyroPut
    refine ⟨fun storing => ?_, fun resting => ?_⟩
    · rw [run, gyroPut_of_storing h read storing]
      rfl
    · rw [run, gyroPut_of_not_storing h read resting]
  · intro armed h
    refine ⟨s.sessionStart, execute_of_executes h (fun body => s.withoutFields body s.sessionStart), ?_⟩
    unfold State.sessionStart
    rw [if_pos armed, answerCode_tku_gyro, start_tku_gyro]
  · intro work h
    obtain ⟨t, run, _, tku, _⟩ := (abortAndRelease.1 s tag rest h).2 work
    exact ⟨t, run, congrArg Tku.gyro tku⟩
  · intro done h
    obtain ⟨t, run, _, tku, _⟩ := (abortAndRelease.2 s tag rest h).2 done
    exact ⟨t, run, congrArg Tku.gyro tku⟩
  · intro idle h
    refine ⟨_, execute_of_executes h (fun body => s.withoutFields body
      (if s.psc.burn.isSome then s.answerCode .busy else s.engineClears.answerCode .ok)), ?_⟩
    rw [withoutFields_nil, if_neg (by rw [idle]; decide), answerCode_tku_gyro, (engineClears_tku_igu s).1]
    rfl
  · obtain ⟨tku, _⟩ := execPinReset_next s _ rfl
    exact ⟨_, rfl, congrArg Tku.gyro tku⟩

end Sys2Proof.Proofs
end

section
/-! The key table under every command (04 R60, R61): records are only added, and keep what their taking wrote: the settled O15. -/
namespace Sys2Proof.Proofs
open Sys2Proof.Machine

/-! ### The key table stays -/

/-- From `s` to `t` every key record stays in its place with what SWC wrote of it at its taking. -/
def KeysStay (s t : State) : Prop :=
  ∀ (k : Nat) (r : KeyRecord), s.swc.keys[k]? = some r → ∃ r', t.swc.keys[k]? = some r' ∧ r'.SameTaking r

theorem KeysStay.of_same {s t : State} (h : t.swc.keys = s.swc.keys) : KeysStay s t := keys_same h

theorem KeysStay.refl (s : State) : KeysStay s s := .of_same rfl

theorem KeysStay.of_frame {l : List Block} {s t : State} (f : SameOutside l s t) (swc : Block.swc ∉ l) : KeysStay s t :=
  .of_same (by rw [f.swc swc])

/-- The end of a command leaves the key table. -/
theorem KeysStay.settled {s t : State} (h : KeysStay s t) : KeysStay s t.settle := by
  unfold KeysStay
  rw [settle_keys]
  exact h

/-- An answer leaves the key table. -/
theorem KeysStay.answered {s t : State} (h : KeysStay s t) (b : ReplyBody) : KeysStay s (t.answer b) := by
  unfold KeysStay
  rw [(answer_frame t b).swc (by decide)]
  exact h

theorem answer_keysStay (s : State) (b : ReplyBody) : KeysStay s (s.answer b) := (KeysStay.refl s).answered b

/-! ### The requests that SWC, CVM and TKU take (05 R82, R86, R88, R101, 03 R48, 09 R159) -/

theorem sessionArm_keysStay (s : State) (body : List Byte) : KeysStay s (s.sessionArm body) := by
  unfold State.sessionArm
  split
  · exact .refl s
  · split
    · split
      · exact answer_keysStay s _
      · exact .of_same rfl
    · exact answer_keysStay s _

theorem start_keysStay (s : State) : KeysStay s s.start := by
  refine .of_same ?_
  unfold State.start
  rw [enterState_swc]

theorem sessionStart_keysStay (s : State) : KeysStay s s.sessionStart := by
  unfold State.sessionStart
  split
  · exact (start_keysStay s).answered _
  · exact answer_keysStay s _

theorem sessionTune_keysStay (s : State) (body : List Byte) : KeysStay s (s.sessionTune body) := by
  have tuned (config : Option SessionConfig) (pending : Option Tunables) :
      KeysStay s { s with swc.config := config, swc.pendingTunables := pending } := .of_same rfl
  unfold State.sessionTune
  split
  · exact answer_keysStay s _
  · split
    · exact (tuned _ _).answered _
    · split
      · exact (tuned _ _).answered _
      · exact answer_keysStay s _

theorem sessionStop_keysStay (s : State) : KeysStay s s.sessionStop := by
  unfold State.sessionStop
  split
  · exact ((KeysStay.of_same (endSweep_keys s .userStop)).answered _).settled
  · exact answer_keysStay s _

theorem gyroPut_keysStay (s : State) (body : List Byte) : KeysStay s (s.gyroPut body) := by
  have put (g : Gyro) : KeysStay s { s with tku.gyro := g } := .of_same rfl
  unfold State.gyroPut
  split
  · exact answer_keysStay s _
  · split
    · exact (put _).answered _
    · exact answer_keysStay s _

theorem outputResume_keysStay (s : State) (action : Option ResumeAction) : KeysStay s (s.outputResume action) := by
  unfold State.outputResume
  split
  · exact answer_keysStay s _
  · split
    · split
      · exact ((KeysStay.of_frame (endHalt_frame s) (by decide)).answered _).settled
      · split
        · exact ((KeysStay.of_frame (retryStrip_frame s _) (by decide)).answered _).settled
        · exact ((KeysStay.of_frame (skipStrip_frame s _) (by decide)).answered _).settled
    · exact answer_keysStay s _

/-- 09 R159: a row of OUTPUT.RESUME leaves the action of the other row to it. -/
theorem resumeRow_keysStay (s : State) (otherRow : Prop) [Decidable otherRow] (action : Option ResumeAction) :
    KeysStay s (if otherRow then s else s.outputResume action) := by
  split
  · exact .refl s
  · exact outputResume_keysStay s action

/-! ### Every command -/

theorem execute_keysStay {s : State} {type : Byte} {handle : List Byte → State} (h : ∀ body, KeysStay s (handle body)) :
    LeadsTo (s.execute type handle) (KeysStay s) := execute_leadsTo (KeysStay.refl s) h

theorem executeFieldless_keysStay {s t : State} {type : Byte} (h : KeysStay s t) :
    LeadsTo (s.execute type (fun body => s.withoutFields body t)) (KeysStay s) := by
  refine execute_keysStay (fun body => ?_)
  unfold State.withoutFields
  split
  · exact h
  · exact answer_keysStay s _

/-- The units' commands keep the keys as their shared operations do, the commands outside SWC by their frame; the others are the requests above. -/
theorem exec_keysStay {c : Instr} (keeps : clearsKeys c = false) (s : State) : LeadsTo (exec c s) (KeysStay s) := by
  by_cases unit : unitCommand c = true
  · exact (exec_kept unit s).mono (fun _ k => k.keys)
  by_cases outside : Block.igu ∉ touches c ∧ Block.tku ∉ touches c ∧ Block.swc ∉ touches c
  · obtain ⟨igu, tku, swc⟩ := outside
    exact (exec_outside igu tku s).mono (fun _ f => .of_frame f swc)
  cases c with
  | sessionArm => exact execute_keysStay (sessionArm_keysStay s)
  | sessionStart => exact executeFieldless_keysStay (sessionStart_keysStay s)
  | sessionTune => exact execute_keysStay (sessionTune_keysStay s)
  | sessionStop => exact executeFieldless_keysStay (sessionStop_keysStay s)
  | gyroPut => exact execute_keysStay (gyroPut_keysStay s)
  | outputResumeRetry => exact execute_keysStay (fun body => resumeRow_keysStay s (resumeBody body = some .skip) _)
  | outputResumeSkip => exact execute_keysStay (fun body => resumeRow_keysStay s (resumeBody body = some .retry) _)
  | columnMapBuilt | sessionAbort | sessionRelease | engineReset | pinReset => cases keeps
  | _ => simp [unitCommand, touches] at unit outside

/-- Settles O15: no command but those that clear the table takes a record from it. -/
theorem keysOnlyAdded : Obligations.KeysOnlyAdded := fun _ s t keeps run => exec_keysStay keeps s t run

end Sys2Proof.Proofs
end

section
/-! KEY.GET and STRIP.GET (04 R79, 11 R182): how their bodies are read back, and the settled O49. -/
namespace Sys2Proof.Proofs
open Sys2Proof.Machine

/-- 11 R171, 04 R79: a KEY.GET body gives its key index and row back; an index above 63 gives a bad field. -/
theorem keyGetBody_field {k row : Nat} (hk : k < 256) (hrow : row < 2 ^ 31) :
    keyGetBody (field 1 k ++ field 4 row) = if 63 < k then none else some (k, row) := by
  have readKey : fieldNat (field 1 k) = k := fieldNat_of_lt (by omega)
  have readRow : fieldInt (field 4 row) = row := fieldInt_of_range (by omega) (by omega)
  have first : (field 1 k ++ field 4 row).take 1 = field 1 k := List.take_left' (field_length 1 k)
  have second : (field 1 k ++ field 4 row).drop 1 = field 4 row := List.drop_left' (field_length 1 k)
  unfold keyGetBody exactly
  rw [if_pos (by simp), Option.bind_some, first, second, readKey, readRow]
  by_cases high : 63 < k
  · rw [if_pos high, if_neg (by omega)]
  · rw [if_neg high, if_pos (by omega)]
    rfl

/-- 11 R171, R182: a STRIP.GET body gives its strip index back; one above 1,023 gives a bad field. -/
theorem stripGetBody_field {j : Nat} (hj : j < 65536) :
    stripGetBody (field 2 j) = if 1023 < j then none else some j := by
  have readStrip : fieldNat (field 2 j) = j := fieldNat_of_lt (by omega)
  unfold stripGetBody exactly
  rw [if_pos (by simp), Option.bind_some, readStrip]
  by_cases high : 1023 < j
  · rw [if_pos high, if_neg (by omega)]
  · rw [if_neg high, if_pos (by omega)]

/-- 04 R79: the reply for key `k` and the seam entries from `row` on. -/
def keyReply (s : State) (k row : Nat) : ReplyBody :=
  if 63 < k then .result .badField
  else (s.keyAt k).elim (.result .notFound) (fun r => .key r (((r.seam.getD []).drop row).take 64))

theorem keyGet_field (s : State) {k row : Nat} (hk : k < 256) (hrow : row < 2 ^ 31) :
    s.keyGet (field 1 k ++ field 4 row) = s.answer (keyReply s k row) := by
  unfold State.keyGet keyReply
  rw [keyGetBody_field hk hrow]
  by_cases high : 63 < k
  · rw [if_pos high, if_pos high]
    rfl
  · rw [if_neg high, if_neg high]
    dsimp only
    cases s.keyAt k <;> rfl

/-- 11 R182: the reply for strip `j`. -/
def stripReply (s : State) (j : Nat) : ReplyBody :=
  if 1023 < j then .result .badField
  else (s.stripAt j).elim (.result .notFound) (fun r => .strip r (placeIn j s.cvm.outQueue))

theorem stripGet_field (s : State) {j : Nat} (hj : j < 65536) :
    s.stripGet (field 2 j) = s.answer (stripReply s j) := by
  unfold State.stripGet stripReply
  rw [stripGetBody_field hj]
  by_cases high : 1023 < j
  · rw [if_pos high, if_pos high]
    rfl
  · rw [if_neg high, if_neg high]
    dsimp only
    cases s.stripAt j <;> rfl

/-- Settles O49: the body is read back, the table is looked up, and nothing but the answer changes. -/
theorem tablesRead : Obligations.TablesRead := by
  refine ⟨fun s tag rest k row hk hrow h => ?_, fun s tag rest j hj h => ?_⟩
  · have run : exec .keyGet s = .next _ := execute_of_executes h s.keyGet
    rw [run, keyGet_field s hk hrow, answer_of_requests h.2 _ (rt := 0x98#8) (by decide)]
    unfold keyReply State.keyAt
    cases s.swc.keys[k]? <;> rfl
  · have run : exec .stripGet s = .next _ := execute_of_executes h s.stripGet
    rw [run, stripGet_field s hj, answer_of_requests h.2 _ (rt := 0x99#8) (by decide)]
    unfold stripReply
    cases s.stripAt j <;> rfl

end Sys2Proof.Proofs
end

section
/-! The tail-key decision (04 R76, R77): its conditions, what it does with the LAST slot, and the settled O33. -/
namespace Sys2Proof.Proofs
open Sys2Proof.Machine

/-! ### The conditions (04 R76) -/

theorem tailCalled_of_cause {s : State} (h : s.swc.endCause = some .userStop ∨ s.swc.endCause = some .stalled
    ∨ s.swc.endCause = some .closureMissed) : s.tailCalled = true := by
  unfold State.tailCalled
  rcases h with e | e | e <;> rw [e] <;> rfl

theorem exec_tailKeyDecision {s : State} (fin : s.swc.state = .finishing) (called : s.tailCalled = true)
    (idle : s.tku.op = none) (undecided : s.swc.tail = .notMade) : exec .tailKeyDecision s = .next s.decideTail.settle :=
  if_pos ⟨fin, called, by rw [idle]; rfl, undecided⟩

theorem tailQualifies_iff (s : State) (r : FrameResult) : s.tailQualifies r = true ↔ (r.cls = .good ∨ r.cls = .weak)
    ∧ s.cfg.atAdv / 4 ≤ s.sgn * r.au ∧ s.sgn * r.au ≤ s.cfg.amax
    ∧ (s.lastKey.u + 4 * (s.sgn * r.au) + 8) / 16 + s.cfg.wf ≤ 128 * s.cfg.maxStrips := by
  rw [← mul_assoc]
  exact decide_eq_true_iff

/-! ### The decision (04 R76, R77) -/

section
variable {s : State} {i : Fin 8} {r : FrameResult}

theorem decideTail_of_last (keyed : s.swc.keys ≠ []) (last : s.firstIn .last = some i) (hr : s.swc.lastResult = some r) :
    s.decideTail = if s.tailQualifies r then
        if s.keyResources then s.takeTail i r else { s with swc.tail := .waiting }
      else s.dropLast := by
  obtain ⟨k, more, hk⟩ := List.exists_cons_of_ne_nil keyed
  unfold State.decideTail
  rw [hk, last, hr]

theorem decideTail_of_resources (keyed : s.swc.keys ≠ []) (last : s.firstIn .last = some i)
    (hr : s.swc.lastResult = some r) (fits : s.tailQualifies r = true) (resources : s.keyResources = true) :
    s.decideTail = s.takeTail i r := by rw [decideTail_of_last keyed last hr, if_pos fits, if_pos resources]

theorem decideTail_of_no_resources (keyed : s.swc.keys ≠ []) (last : s.firstIn .last = some i)
    (hr : s.swc.lastResult = some r) (fits : s.tailQualifies r = true) (short : s.keyResources = false) :
    s.decideTail = { s with swc.tail := .waiting } := by
  rw [decideTail_of_last keyed last hr, if_pos fits, if_neg (by rw [short]; decide)]

theorem decideTail_of_unfit (keyed : s.swc.keys ≠ []) (last : s.firstIn .last = some i)
    (hr : s.swc.lastResult = some r) (unfit : ¬ s.tailQualifies r = true) : s.decideTail = s.dropLast := by
  rw [decideTail_of_last keyed last hr, if_neg unfit]

theorem decideTail_of_no_last (h : s.firstIn .last = none) : s.decideTail = s.dropLast := by
  unfold State.decideTail
  rw [h]
  split
  · next e _ => cases e
  · rfl

/-! ### The LAST slot given up -/

theorem dropLast_slotState (h : s.slotState i = .last) : s.dropLast.slotState i = .free := by
  show (s.freeSlots (s.slotsIn .last)).igu.slots[i].state = .free
  rw [freeSlots_get, if_pos ((mem_slotsIn_iff s .last i).mpr h)]

theorem dropLast_igu_of_no_last (h : s.firstIn .last = none) : s.dropLast.igu = s.igu := by
  show (s.freeSlots (s.slotsIn .last)).igu = s.igu
  rw [List.head?_eq_none_iff.mp h]
  rfl

end

/-! ### The end of the command (05 R100) -/

/-- 04 R76: once made, the decision stays made. -/
theorem settle_tail_of_made {s : State} (h : s.swc.tail = .made) : s.settle.swc.tail = .made := by
  rcases settle_swc s with e | ⟨_, e⟩ | ⟨_, _, e⟩ <;> rw [e]
  · exact h
  · exact h

/-- 04 R76: with a key in the table the end of a command makes no tail-key decision. -/
theorem settle_tail_of_keys {s : State} (h : s.swc.keys ≠ []) : s.settle.swc.tail = s.swc.tail := by
  rcases settle_swc s with e | ⟨_, e⟩ | ⟨_, none, _⟩
  · rw [e]
  · rw [e]
  · exact absurd none h

/-- With no slot LAST there is none to give up on the way to DONE. -/
theorem settle_igu_of_no_last {s : State} (h : s.firstIn .last = none) : s.settle.igu = s.igu := by
  show s.checkDone.igu = s.igu
  unfold State.checkDone
  split
  · rw [enterState_igu]
    split
    · exact dropLast_igu_of_no_last h
    · rfl
  · rfl

/-- Settles O33: the LAST frame is taken, waits, or is dropped by R76's conditions; the end of the command leaves it so, as there is a key. -/
theorem tailKeyDecided : Obligations.TailKeyDecided := by
  refine ⟨fun s i r a fits fin cause idle undecided keyed last hr ha hfits => ?_,
    fun s fin cause idle undecided none => ?_⟩
  · subst ha
    have qualifies : fits ↔ s.tailQualifies r = true := hfits.trans (tailQualifies_iff s r).symm
    have run := exec_tailKeyDecision fin (tailCalled_of_cause cause) idle undecided
    refine ⟨fun fit resources => ?_, fun fit short => ?_, fun unfit => ?_⟩
    · rw [decideTail_of_resources keyed last hr (qualifies.mp fit) resources] at run
      obtain ⟨recorded, slot, made, _⟩ := takeTail_recorded s i r
      have more : (s.takeTail i r).swc.keys ≠ [] := by rw [recorded.keys]; simp
      have settled := recorded.settled
      refine ⟨_, _, run, settled.keys, rfl, rfl, ?_, settle_tail_of_made made, settled.queue⟩
      unfold State.slotState at *
      rw [settle_igu more]
      exact slot
    · rw [decideTail_of_no_resources keyed last hr (qualifies.mp fit) short] at run
      refine ⟨_, run, settle_tail_of_keys keyed, settle_keys _, ?_⟩
      have igu := settle_igu (s := { s with swc.tail := .waiting }) keyed
      exact (congrArg (fun x : Igu => x.slots[i].state) igu).trans (slotState_of_firstIn last)
    · rw [decideTail_of_unfit keyed last hr (mt qualifies.mpr unfit)] at run
      have keys : s.dropLast.swc.keys = s.swc.keys := by rw [dropLast_swc]
      refine ⟨_, run, settle_tail_of_made (by rw [dropLast_swc]), (settle_keys _).trans keys, ?_⟩
      have freed := dropLast_slotState (slotState_of_firstIn last)
      unfold State.slotState at *
      rw [settle_igu (by rw [keys]; exact keyed)]
      exact freed
  · have run := exec_tailKeyDecision fin (tailCalled_of_cause cause) idle undecided
    rw [decideTail_of_no_last none] at run
    have igu := dropLast_igu_of_no_last none
    have stillNone : s.dropLast.firstIn .last = Option.none := by
      unfold State.firstIn State.slotsIn State.slotState at *
      rw [igu]
      exact none
    refine ⟨_, run, settle_tail_of_made (by rw [dropLast_swc]), ?_, (settle_igu_of_no_last stillNone).trans igu, ?_⟩
    · rw [settle_keys, dropLast_swc]
    · rw [settle_smu, (dropLast_frame s).smu (by decide)]

end Sys2Proof.Proofs
end

section
/-! The end of an ordinary commit (07 R134, 08 R143, 04 R62): the key states and the release, the frontier, the strips made FINAL and the next commit, and the settled O38. -/
namespace Sys2Proof.Proofs
open Sys2Proof.Machine

/-! ### The key states (07 R134 steps 1 and 2) -/

/-- 04 R62: a key record COMMITTED. -/
def committedKey (r : KeyRecord) : KeyRecord := { r with state := .committed }

/-- 04 R62: a key record RELEASED, its slot given up. -/
def releasedKey (r : KeyRecord) : KeyRecord := { r with state := .released, slot := none }

theorem committedKey_sameTaking (r : KeyRecord) : (committedKey r).SameTaking r := ⟨rfl, rfl, rfl, rfl, rfl, rfl, rfl, rfl⟩

theorem releasedKey_sameTaking (r : KeyRecord) : (releasedKey r).SameTaking r := ⟨rfl, rfl, rfl, rfl, rfl, rfl, rfl, rfl⟩

theorem commitKeys_ordinary_zero (s : State) :
    s.commitKeys { kind := .ordinary, key := 0 } = s.updateKey 0 committedKey := rfl

theorem commitKeys_ordinary_pos (s : State) {j : Nat} (h : 1 ≤ j) :
    s.commitKeys { kind := .ordinary, key := j } = (s.updateKey j committedKey).releaseKey (j - 1) :=
  if_neg (show j ≠ 0 by omega)

/-- 04 R62: the slot of a released key is FREE. -/
theorem slotState_releaseKey {s : State} {k : Nat} {l : KeyRecord} {i : Fin 8} (hk : s.swc.keys[k]? = some l)
    (slot : l.slot = some i) : (s.releaseKey k).slotState i = .free := by
  have held : (s.keyAt k).bind KeyRecord.slot = some i := by unfold State.keyAt; rw [hk]; exact slot
  unfold State.releaseKey
  rw [held]
  exact (slotState_freeSlot _ i i).trans (if_pos rfl)

/-! ### The strips made FINAL (08 R143) -/

theorem finaliseBelow_cvm (s : State) : s.finaliseBelow.cvm = { s.cvm with
    strips := s.cvm.strips.map (fun r =>
      if r.state = .opened ∧ r.isHeld = false ∧ (r.uStart : Int) + r.width ≤ s.blu.frontier then
        { r with state := .final } else r)
    outQueue := s.cvm.outQueue ++ (s.cvm.strips.filter (fun r =>
      decide (r.state = .opened ∧ r.isHeld = false ∧ (r.uStart : Int) + r.width ≤ s.blu.frontier))).map Strip.index } := by
  unfold State.finaliseBelow State.finalise
  simp

/-! ### The commit completes (07 R134) -/

theorem exec_commitComplete {s : State} {run : CommitRun} {c : Commit} {rest : List Commit} (hrun : s.blu.run = some run)
    (hq : s.blu.queue = c :: rest) (writing : s.blu.state = .writing) (spanned : run.spanHi ≤ run.cursor)
    (written : s.nextBlu = none) : exec .commitComplete s = .next (s.completeCommit c rest run.spanHi).settle := by
  show execCommitComplete s = _
  unfold execCommitComplete
  rw [hrun, hq]
  exact if_pos ⟨writing, spanned, by unfold State.partWritten; rw [written]; rfl⟩

section
variable (s : State) (c : Commit) (rest : List Commit) (hi : Int)

theorem moveFrontier_blu : (s.moveFrontier c hi).blu = { s.blu with frontier := hi } := by
  unfold State.moveFrontier
  dsimp only
  split
  · exact (finaliseBelow_frame _).blu (by decide)
  · exact (finaliseAll_frame _).blu (by decide)
  · exact (finaliseAll_frame _).blu (by decide)

/-- What the end of a commit does to the key table and to the slots is what its key states and releases do. -/
theorem completeCommit_swc_igu : (s.completeCommit c rest hi).swc = (s.commitKeys c).swc
    ∧ (s.completeCommit c rest hi).igu = (s.commitKeys c).igu := by
  have begun := beginCommit_frame
    { ((s.commitKeys c).moveFrontier c hi) with blu.queue := rest, blu.run := none }
  have moved := moveFrontier_frame (s.commitKeys c) c hi
  exact ⟨(begun.swc (by decide)).trans (moved.swc (by decide)), (begun.igu (by decide)).trans (moved.igu (by decide))⟩

/-- 07 R134 steps 3 and 5, R123: the frontier takes the end of the span, the commit leaves the queue, and the next one begins or BLU is IDLE. -/
theorem completeCommit_blu : (s.completeCommit c rest hi).blu.frontier = hi ∧ (s.completeCommit c rest hi).blu.queue = rest
    ∧ (rest = [] → (s.completeCommit c rest hi).blu.state = .idle ∧ (s.completeCommit c rest hi).blu.run = none)
    ∧ ∀ d more, rest = d :: more → (s.completeCommit c rest hi).CommitBegun d := by
  obtain ⟨frontier, queue, idle⟩ := beginCommit_blu
    { ((s.commitKeys c).moveFrontier c hi) with blu.queue := rest, blu.run := none }
  refine ⟨frontier.trans ?_, queue, idle, fun d more h => beginCommit_begun h⟩
  exact congrArg Blu.frontier (moveFrontier_blu (s.commitKeys c) c hi)

end

/-- 08 R143: of CVM an ordinary commit changes what its strips made FINAL change. -/
theorem completeCommit_cvm_of_ordinary (s : State) (j : Nat) (rest : List Commit) (hi : Int) :
    (s.completeCommit { kind := .ordinary, key := j } rest hi).cvm = ({ s with blu.frontier := hi } : State).finaliseBelow.cvm := by
  have cvm := (commitKeys_frame s { kind := .ordinary, key := j }).cvm (by decide)
  refine ((beginCommit_frame _).cvm (by decide)).trans ?_
  show ({ s.commitKeys _ with blu.frontier := hi } : State).finaliseBelow.cvm = _
  rw [finaliseBelow_cvm, finaliseBelow_cvm]
  dsimp only
  rw [cvm]

/-- 05 R100: with a key in the table the end of a completed commit leaves key table and slots as its key states and releases do. -/
theorem completeCommit_settled (s : State) (c : Commit) (rest : List Commit) (hi : Int) {k : Nat} {r : KeyRecord}
    (hk : (s.commitKeys c).swc.keys[k]? = some r) :
    (s.completeCommit c rest hi).settle.swc.keys = (s.commitKeys c).swc.keys
      ∧ (s.completeCommit c rest hi).settle.igu = (s.commitKeys c).igu := by
  obtain ⟨swc, igu⟩ := completeCommit_swc_igu s c rest hi
  have keyed : (s.completeCommit c rest hi).swc.keys ≠ [] := by
    rw [swc]
    rintro none
    rw [none] at hk
    cases hk
  exact ⟨by rw [settle_keys, swc], (settle_igu keyed).trans igu⟩

/-- Settles O38: the key states and the release, then the frontier with the strips below it, then the next commit. -/
theorem ordinaryCommitCompletes : Obligations.OrdinaryCommitCompletes := by
  refine ⟨fun s run j rest l r i hrun hq writing spanned written pos hl hr slot => ?_,
    fun s run rest r hrun hq writing spanned written hr => ?_,
    fun s run j rest hrun hq writing spanned written => ?_⟩
  · have before : (s.updateKey j committedKey).swc.keys[j - 1]? = some l := by
      rw [keyAt_updateKey, if_neg (by omega), hl]
    have left : (s.commitKeys { kind := .ordinary, key := j }).swc.keys[j - 1]?
        = some (releasedKey l) := by
      rw [commitKeys_ordinary_pos s pos, keyAt_releaseKey, if_pos rfl, before]
      rfl
    have right : (s.commitKeys { kind := .ordinary, key := j }).swc.keys[j]? = some (committedKey r) := by
      rw [commitKeys_ordinary_pos s pos, keyAt_releaseKey, if_neg (by omega), keyAt_updateKey, if_pos rfl, hr]
      rfl
    obtain ⟨keys, igu⟩ := completeCommit_settled s _ rest run.spanHi left
    obtain ⟨frontier, queue, _⟩ := completeCommit_blu s { kind := .ordinary, key := j } rest run.spanHi
    refine ⟨_, _, _, exec_commitComplete hrun hq writing spanned written, by rw [keys]; exact left, rfl, rfl,
      releasedKey_sameTaking l, by rw [keys]; exact right, rfl, committedKey_sameTaking r, ?_,
      by rw [settle_blu]; exact frontier, by rw [settle_blu]; exact queue⟩
    have freed := slotState_releaseKey before slot
    rw [← commitKeys_ordinary_pos s pos] at freed
    unfold State.slotState at *
    rw [igu]
    exact freed
  · have zero : (s.commitKeys { kind := .ordinary, key := 0 }).swc.keys[0]? = some (committedKey r) := by
      rw [commitKeys_ordinary_zero, keyAt_updateKey, if_pos rfl, hr]
      rfl
    obtain ⟨keys, igu⟩ := completeCommit_settled s _ rest run.spanHi zero
    obtain ⟨frontier, queue, _⟩ := completeCommit_blu s { kind := .ordinary, key := 0 } rest run.spanHi
    exact ⟨_, exec_commitComplete hrun hq writing spanned written, by rw [keys]; exact zero, igu,
      by rw [settle_blu]; exact frontier, by rw [settle_blu]; exact queue⟩
  · obtain ⟨frontier, queue, idle, begun⟩ := completeCommit_blu s { kind := .ordinary, key := j } rest run.spanHi
    have cvm := completeCommit_cvm_of_ordinary s j rest run.spanHi
    rw [finaliseBelow_cvm] at cvm
    refine ⟨_, exec_commitComplete hrun hq writing spanned written, ?_⟩
    rw [settle_blu, settle_cvm, cvm]
    exact ⟨rfl, rfl, rfl, frontier, queue, idle, fun c more h => (begun c more h).settled⟩

end Sys2Proof.Proofs
end

section
/-! Step 5 of the decision (04 R66, 05 R95 to R97) and the end causes and the pace change that it makes due (05 R93, R95, R96, 04 R74), and the settled O30. -/
namespace Sys2Proof.Proofs
open Sys2Proof.Machine

/-! ### The closure window (05 R97, 08 R146, R150) -/

/-- 05 R97, 08 R146: the closure window opens: the session is CLOSING with the closure run 0. -/
def windowOpened (s : State) : State := { s with cvm.closureRun := 0 }.enterState .closing

/-- 05 R97, 08 R150: the closure window is passed: the sweep ends with CLOSURE_MISSED, and the result is noticed. -/
def windowMissed (s : State) (r : FrameResult) : State :=
  { (s.endSweep .closureMissed) with cvm.closureResult := some .missed }.notify (.closureMissed s.swc.id r.stored)

theorem windowOpened_swc (s : State) : (windowOpened s).swc = { s.swc with state := .closing } := enterState_swc _ _

theorem windowOpened_cvm (s : State) : (windowOpened s).cvm = { s.cvm with closureRun := 0 } :=
  (enterState_frame _ _).cvm (by decide)

theorem windowOpened_noticed (s : State) : s.Noticed (windowOpened s) (.session s.swc.id s.swc.state .closing none
    s.swc.decided s.swc.keys.length s.igu.nextStored) :=
  (enterState_noticed { s with cvm.closureRun := 0 } .closing).of_lku rfl

theorem windowMissed_swc (s : State) (r : FrameResult) : (windowMissed s r).swc = (s.endSweep .closureMissed).swc :=
  (notify_frame _ _).swc (by decide)

theorem windowMissed_cvm (s : State) (r : FrameResult) :
    (windowMissed s r).cvm = { s.cvm with closureResult := some .missed } := by
  refine ((notify_frame _ _).cvm (by decide)).trans ?_
  dsimp only
  rw [(endSweep_frame s .closureMissed).cvm (by decide)]

section
variable {s : State} {op : TrackOp}

theorem windowStep_of_partial (h : s.cfg.extent = .partialSweep) (r : FrameResult) : s.windowStep op r = s.finishFrame :=
  if_neg (by rw [h]; decide)

theorem windowStep_of_opening (full : s.cfg.extent = .fullCircle) (sweeping : s.swc.state = .sweeping)
    (inside : 16 * s.cfg.uc - 12 * s.cfg.wf ≤ op.position.1) (r : FrameResult) :
    s.windowStep op r = (windowOpened s).finishFrame := (if_pos full).trans (if_pos ⟨sweeping, inside⟩)

theorem windowStep_of_passed (full : s.cfg.extent = .fullCircle) (closing : s.swc.state = .closing)
    (past : 16 * s.cfg.uc + 8 * s.cfg.wf ≤ op.position.1) (r : FrameResult) :
    s.windowStep op r = (windowMissed s r).finishFrame :=
  (if_pos full).trans ((if_neg (fun h => absurd (closing.symm.trans h.1) (by decide))).trans (if_pos ⟨closing, past⟩))

theorem windowStep_of_elsewhere (opening : ¬ (s.swc.state = .sweeping ∧ 16 * s.cfg.uc - 12 * s.cfg.wf ≤ op.position.1))
    (passed : ¬ (s.swc.state = .closing ∧ 16 * s.cfg.uc + 8 * s.cfg.wf ≤ op.position.1)) (r : FrameResult) :
    s.windowStep op r = s.finishFrame := by
  unfold State.windowStep
  dsimp only
  rw [if_neg opening, if_neg passed, ite_self]

/-- 05 R97: the window opens, is passed, or is neither; then the decision is made. -/
theorem windowStep_ends (s : State) (op : TrackOp) (r : FrameResult) :
    (s.swc.state = .sweeping ∧ s.windowStep op r = (windowOpened s).finishFrame)
      ∨ (s.swc.state = .closing ∧ s.windowStep op r = (windowMissed s r).finishFrame)
      ∨ s.windowStep op r = s.finishFrame := by
  unfold State.windowStep
  dsimp only
  split
  · split
    · next opening => exact .inl ⟨opening.1, rfl⟩
    · split
      · next passed => exact .inr (.inl ⟨passed.1, rfl⟩)
      · exact .inr (.inr rfl)
  · exact .inr (.inr rfl)

end

/-! ### What the window leaves once the decision is made -/

theorem finishFrame_cvm (s : State) : s.finishFrame.cvm = s.cvm := (finishFrame_frame s).cvm (by decide)

section
variable {s : State} {op : TrackOp}

theorem windowOpened_finished (sweeping : s.swc.state = .sweeping) : (windowOpened s).finishFrame.swc.state = .closing
    ∧ (windowOpened s).finishFrame.cvm = { s.cvm with closureRun := 0 }
    ∧ s.Noticed (windowOpened s).finishFrame (.session s.swc.id .sweeping .closing none s.swc.decided s.swc.keys.length
        s.igu.nextStored) := by
  have noticed := windowOpened_noticed s
  rw [sweeping] at noticed
  exact ⟨by rw [finishFrame_state, windowOpened_swc], by rw [finishFrame_cvm, windowOpened_cvm],
    noticed.kept (finishFrame_notices _)⟩

theorem windowMissed_finished (closing : s.swc.state = .closing) (r : FrameResult) :
    (windowMissed s r).finishFrame.swc.endCause = some .closureMissed
      ∧ (windowMissed s r).finishFrame.swc.state = .finishing
      ∧ (windowMissed s r).finishFrame.cvm = { s.cvm with closureResult := some .missed }
      ∧ s.Noticed (windowMissed s r).finishFrame (.session s.swc.id .closing .finishing (some .closureMissed)
          s.swc.decided s.swc.keys.length s.igu.nextStored)
      ∧ s.NoticedNext (windowMissed s r).finishFrame (.closureMissed s.swc.id r.stored) := by
  have storing : s.storing = true := by unfold State.storing; rw [closing]; rfl
  have session := endSweep_noticed storing .closureMissed
  rw [closing] at session
  have behind : (s.endSweep .closureMissed).NoticesKept (windowMissed s r) := .left (by rfl) (notify_notices _ _)
  have result : s.NoticedNext (windowMissed s r) (.closureMissed s.swc.id r.stored) :=
    notify_noticedNext (t := { (s.endSweep .closureMissed) with cvm.closureResult := some .missed })
      (endSweep_lku storing .closureMissed) _
  exact ⟨by rw [finishFrame_endCause, windowMissed_swc, endSweep_endCause storing],
    by rw [finishFrame_state, windowMissed_swc, endSweep_state storing], by rw [finishFrame_cvm, windowMissed_cvm],
    session.kept (behind.trans (finishFrame_notices _)), result.kept (finishFrame_notices _)⟩

/-- 05 R97, 08 R146: in SWEEPING the window opens where the frame's position reaches it, and not before. -/
theorem windowStep_sweeping (r : FrameResult) (full : s.cfg.extent = .fullCircle) (sweeping : s.swc.state = .sweeping) :
    ((s.windowStep op r).swc.state = .closing ↔ 16 * s.cfg.uc - 12 * s.cfg.wf ≤ op.position.1)
      ∧ (16 * s.cfg.uc - 12 * s.cfg.wf ≤ op.position.1 →
          (s.windowStep op r).cvm = { s.cvm with closureRun := 0 }
          ∧ s.Noticed (s.windowStep op r) (.session s.swc.id .sweeping .closing none s.swc.decided s.swc.keys.length
              s.igu.nextStored))
      ∧ (op.position.1 < 16 * s.cfg.uc - 12 * s.cfg.wf → (s.windowStep op r).swc.state = .sweeping) := by
  obtain ⟨state, cvm, noticed⟩ := windowOpened_finished sweeping
  by_cases inside : 16 * s.cfg.uc - 12 * s.cfg.wf ≤ op.position.1
  · rw [windowStep_of_opening full sweeping inside]
    exact ⟨iff_of_true state inside, fun _ => ⟨cvm, noticed⟩, fun before => absurd inside (not_le.mpr before)⟩
  · have stays : (s.windowStep op r).swc.state = .sweeping := by
      rw [windowStep_of_elsewhere (fun h => inside h.2) (fun h => absurd (sweeping.symm.trans h.1) (by decide)),
        finishFrame_state, sweeping]
    exact ⟨iff_of_false (by rw [stays]; decide) inside, fun h => absurd h inside, fun _ => stays⟩

end

/-! ### The counts of step 5 (05 R95, R96) -/

/-- Pace, stall count and high-water mark are the same. -/
structure PaceAndStallSame (s t : State) : Prop where
  pace : t.swc.pace = s.swc.pace
  stall : t.swc.stallCount = s.swc.stallCount
  highWater : t.swc.highWater = s.swc.highWater

theorem finishFrame_paceAndStall (s : State) : PaceAndStallSame s s.finishFrame := by
  constructor <;> rw [finishFrame_swc_eq]

theorem settle_paceAndStall (s : State) : PaceAndStallSame s s.settle := by
  constructor <;> rw [settle_swc_eq]

theorem PaceAndStallSame.trans {s t u : State} (h : PaceAndStallSame s t) (k : PaceAndStallSame t u) :
    PaceAndStallSame s u :=
  ⟨k.pace.trans h.pace, k.stall.trans h.stall, k.highWater.trans h.highWater⟩

theorem endSweep_paceAndStall {s : State} (h : s.storing = true) (c : EndCause) : PaceAndStallSame s (s.endSweep c) := by
  constructor <;> rcases endSweep_swc h c with e | e <;> rw [e]

/-- The closure window leaves the counts of pace and stall. -/
theorem windowStep_paceAndStall (s : State) (op : TrackOp) (r : FrameResult) : PaceAndStallSame s (s.windowStep op r) := by
  rcases windowStep_ends s op r with ⟨_, e⟩ | ⟨closing, e⟩ | e <;> rw [e]
  · have opened : PaceAndStallSame s (windowOpened s) := by constructor <;> rw [windowOpened_swc]
    exact opened.trans (finishFrame_paceAndStall _)
  · have ended := endSweep_paceAndStall (s := s) (by unfold State.storing; rw [closing]; rfl) .closureMissed
    have missed : PaceAndStallSame s (windowMissed s r) :=
      ⟨by rw [windowMissed_swc, ended.pace], by rw [windowMissed_swc, ended.stall], by rw [windowMissed_swc, ended.highWater]⟩
    exact missed.trans (finishFrame_paceAndStall _)
  · exact finishFrame_paceAndStall s

/-- 05 R95: the state with the frame's position counted: the high-water mark risen and the stall count `n`. -/
def stallCounted (s : State) (op : TrackOp) (n : Nat) : State :=
  { s with swc.stallCount := n, swc.highWater := some (max (s.swc.highWater.getD op.position.1) op.position.1) }

section
variable {s : State} {op : TrackOp}

/-- 05 R95: a frame that raises the mark by 16 clears the stall count. -/
theorem stallStep_of_advance (h : s.swc.highWater.getD op.position.1 + 16 ≤ op.position.1) (r : FrameResult) :
    s.stallStep op r = (stallCounted s op 0).windowStep op r := if_pos h

/-- 05 R95: a count that reaches stall_frames leaves STALLED due. -/
theorem stallStep_of_full (h : op.position.1 < s.swc.highWater.getD op.position.1 + 16)
    (full : s.cfg.stallFrames ≤ s.swc.stallCount + 1) (r : FrameResult) :
    s.stallStep op r = (stallCounted s op (s.swc.stallCount + 1)).setStage .stalledDue :=
  (if_neg (by omega)).trans (if_pos full)

theorem stallStep_of_counted (h : op.position.1 < s.swc.highWater.getD op.position.1 + 16)
    (below : ¬ s.cfg.stallFrames ≤ s.swc.stallCount + 1) (r : FrameResult) :
    s.stallStep op r = (stallCounted s op (s.swc.stallCount + 1)).windowStep op r :=
  (if_neg (by omega)).trans (if_neg below)

/-- 05 R95: what the stall test counts. -/
theorem stallStep_counts (s : State) (op : TrackOp) (r : FrameResult) :
    PaceAndStallSame (stallCounted s op (if s.swc.highWater.getD op.position.1 + 16 ≤ op.position.1 then 0
      else s.swc.stallCount + 1)) (s.stallStep op r) := by
  by_cases advance : s.swc.highWater.getD op.position.1 + 16 ≤ op.position.1
  · rw [if_pos advance, stallStep_of_advance advance]
    exact windowStep_paceAndStall _ op r
  · rw [if_neg advance]
    by_cases full : s.cfg.stallFrames ≤ s.swc.stallCount + 1
    · rw [stallStep_of_full (not_le.mp advance) full]
      exact ⟨rfl, rfl, rfl⟩
    · rw [stallStep_of_counted (not_le.mp advance) full]
      exact windowStep_paceAndStall _ op r

theorem stallStep_pace (s : State) (op : TrackOp) (r : FrameResult) : (s.stallStep op r).swc.pace = s.swc.pace :=
  (stallStep_counts s op r).pace

theorem stallStep_keys (s : State) (op : TrackOp) (r : FrameResult) : (s.stallStep op r).swc.keys = s.swc.keys := by
  obtain ⟨v, judged, ends⟩ := stallStep_cases s op r
  rw [ends.swc, judged.swc]

end

/-! ### The pace (05 R96) -/

theorem paceClass_fast_iff (c : SessionConfig) (v : Int) : paceClass c v = .fast ↔ v * c.fastFrames > c.atAdv := by
  unfold paceClass
  split
  · next fast => exact ⟨fun _ => fast, fun _ => rfl⟩
  · next steady =>
    refine ⟨fun h => ?_, fun h => absurd h steady⟩
    split at h <;> cases h

theorem paceClass_slow_iff (c : SessionConfig) (v : Int) :
    paceClass c v = .slow ↔ ¬ v * c.fastFrames > c.atAdv ∧ v * c.slowFrames < c.atAdv := by
  unfold paceClass
  split
  · next fast => exact ⟨nofun, fun h => absurd fast h.1⟩
  · next steady =>
    split
    · next slow => exact ⟨fun _ => ⟨steady, slow⟩, fun _ => rfl⟩
    · next ok => exact ⟨nofun, fun h => absurd h.2 ok⟩

section
variable {p : Pace} {c : PaceClass}

theorem classed_of_reported (h : c = p.reported) : p.classed c = ({ p with run := 0 }, false) := if_pos h

theorem classed_of_new (h : c ≠ p.reported) (new : p.candidate ≠ some c) :
    p.classed c = ({ p with candidate := some c, run := 1 }, false) := (if_neg h).trans (if_neg new)

theorem classed_of_short (h : c ≠ p.reported) (held : p.candidate = some c) (short : p.run < 2) :
    p.classed c = ({ p with run := p.run + 1 }, false) :=
  (if_neg h).trans ((if_pos held).trans (if_neg (by omega)))

theorem classed_of_third (h : c ≠ p.reported) (held : p.candidate = some c) (third : 2 ≤ p.run) :
    p.classed c = (p, true) := (if_neg h).trans ((if_pos held).trans (if_pos (by omega)))

end

section
variable {s : State} {r : FrameResult} {p : Pace}

/-- 05 R96: with the lock LOST a frame is not classed, and clears the run. -/
theorem paceStep_pace_of_lost (h : r.lock = .lost) (op : TrackOp) :
    (s.paceStep op r).swc.pace = { s.swc.pace with run := 0 } := by
  rw [show s.paceStep op r = _ from if_pos h, stallStep_pace]

theorem paceStep_pace_of_classed (h : r.lock ≠ .lost)
    (e : s.swc.pace.classed (paceClass s.cfg (s.sgn * r.su)) = (p, false)) (op : TrackOp) :
    (s.paceStep op r).swc.pace = p := by
  have counted : s.paceStep op r = ({ s with swc.pace := p } : State).stallStep op r := by
    unfold State.paceStep
    dsimp only
    rw [if_neg h, e]
    rfl
  rw [counted, stallStep_pace]

/-- 05 R96: the third frame of a candidate leaves the pace change due. -/
theorem paceStep_of_third (h : r.lock ≠ .lost)
    (e : s.swc.pace.classed (paceClass s.cfg (s.sgn * r.su)) = (p, true)) (op : TrackOp) :
    s.paceStep op r = s.setStage .paceDue := by
  unfold State.paceStep
  dsimp only
  rw [if_neg h, e]
  rfl

/-! ### The pace change (05 R96) -/

theorem exec_paceChange {op : TrackOp} (hop : s.tku.op = some op) (due : op.stage = .paceDue) (hr : op.result = some r)
    (storing : s.storing = true) : exec .paceChange s = .next ((s.changePace r).stallStep op r).settle := by
  show execPaceChange s = _
  unfold execPaceChange
  simp only [hop, due, hr]
  exact if_pos storing

theorem changePace_swc (s : State) (r : FrameResult) : (s.changePace r).swc = { s.swc with
    pace := { s.swc.pace with reported := s.swc.pace.candidate.getD s.swc.pace.reported, run := 0 } } := by
  unfold State.changePace
  dsimp only
  rw [(notify_frame s _).swc (by decide)]

theorem changePace_pace {c : PaceClass} (h : s.swc.pace.candidate = some c) (r : FrameResult) :
    (s.changePace r).swc.pace = { reported := c, candidate := some c, run := 0 } := by
  rw [changePace_swc]
  simp only [h, Option.getD_some]

theorem changePace_noticed {c : PaceClass} (h : s.swc.pace.candidate = some c) (r : FrameResult) :
    s.Noticed (s.changePace r) (.pace s.swc.id r.stored s.swc.pace.reported c (s.sgn * r.su)) := by
  have noticed := notify_noticed s (.pace s.swc.id r.stored s.swc.pace.reported
    (s.swc.pace.candidate.getD s.swc.pace.reported) (s.sgn * r.su))
  rw [h] at noticed
  refine noticed.kept (.of_lku ?_)
  unfold State.changePace
  rw [h]

end

/-! ### End causes that were due (05 R93, R95, 04 R74) -/

/-- 05 R98, R99: an end cause taken in a storing state: recorded, the session in FINISHING, or in DONE where nothing is left to do. -/
theorem endDue_ends {s : State} {op : TrackOp} (hop : s.tku.op = some op) (storing : s.storing = true) {due : TrackStage}
    (h : op.stage = due) (c : EndCause) : (s.endDue due c).swc.endCause = some c
      ∧ ((s.endDue due c).swc.state = .finishing ∨ (s.endDue due c).swc.state = .done)
      ∧ (s.endDue due c).swc.keys = s.swc.keys
      ∧ s.Noticed (s.endDue due c) (.session s.swc.id s.swc.state .finishing (some c) s.swc.decided s.swc.keys.length
          s.igu.nextStored) := by
  have ended : s.endDue due c = (s.endSweep c).finishFrame.settle := by
    unfold State.endDue
    rw [hop]
    exact if_pos h
  obtain ⟨cause, state, keys, _⟩ := endSweep_finishFrame hop storing c
  rw [ended]
  exact ⟨by rw [settle_endCause, cause], settle_finishing state, by rw [settle_keys, keys],
    (endSweep_noticed storing c).kept ((finishFrame_notices _).trans (settle_notices _))⟩

/-- Settles O30: the end causes and the pace change when due, then the three tests of step 5 by their cases. -/
theorem dueStepsTaken : Obligations.DueStepsTaken := by
  refine ⟨fun s op hop storing => ⟨fun h => ⟨_, rfl, endDue_ends hop storing h .noSweep⟩,
      fun h => ⟨_, rfl, endDue_ends hop storing h .stalled⟩, fun h => ⟨_, rfl, endDue_ends hop storing h .keyLimit⟩⟩,
    fun s op r c hop due hr storing candidate => ?_,
    fun c v => ⟨paceClass_fast_iff c v, paceClass_slow_iff c v⟩,
    fun s op r c hc => ⟨fun lost => paceStep_pace_of_lost lost op, fun tracked => ?_⟩,
    fun s op op0 r u m hop hu hm => ?_,
    fun s op r u hu => ?_⟩
  · refine ⟨_, exec_paceChange hop due hr storing, ?_, ?_, (changePace_noticed candidate r).kept
      ((stallStep_notices _ _ _).trans (settle_notices _))⟩
    · rw [(settle_paceAndStall _).pace, stallStep_pace, changePace_pace candidate]
    · rw [settle_keys, stallStep_keys, changePace_swc]
  · subst hc
    exact ⟨fun same => paceStep_pace_of_classed tracked (classed_of_reported same) op,
      fun other new => paceStep_pace_of_classed tracked (classed_of_new other new) op,
      fun other held => ⟨fun short => paceStep_pace_of_classed tracked (classed_of_short other held short) op,
        fun third => paceStep_of_third tracked (classed_of_third other held third) op⟩⟩
  · subst hu hm
    obtain ⟨_, stall, highWater⟩ := stallStep_counts s op r
    refine ⟨highWater, fun advance => stall.trans (if_pos advance), fun behind => ⟨stall.trans (if_neg (by omega)), fun full => ?_⟩⟩
    rw [stallStep_of_full behind full]
    exact ⟨rfl, _, setStage_of_op (s := stallCounted s op (s.swc.stallCount + 1)) hop .stalledDue, rfl⟩
  · subst hu
    refine ⟨windowStep_sweeping r, fun full closing past => ?_, fun full closing before => ?_, fun part => ?_⟩
    · rw [windowStep_of_passed full closing past]
      exact windowMissed_finished closing r
    · rw [windowStep_of_elsewhere (fun h => absurd (closing.symm.trans h.1) (by decide))
        (fun h => absurd h.2 (not_le.mpr before))]
      exact ⟨by rw [finishFrame_state, closing], finishFrame_cvm s⟩
    · rw [windowStep_of_partial part]
      exact ⟨finishFrame_state s, finishFrame_cvm s⟩

end Sys2Proof.Proofs
end

section
/-! The closure (08 R147 to R149, 04 R78): what qualifies, what sets the closure run, and what an acceptance changes, and the settled O31. -/
namespace Sys2Proof.Proofs
open Sys2Proof.Machine

/-! ### The measurement (08 R147) -/

theorem closureMeasure_iff (s : State) (u v : Int) (r : FrameResult) (um vres : Int) :
    s.closureMeasure (u, v) r = some (um, vres) ↔
      ∃ c ecu ecv, r.closure = some c ∧ c.est = some (ecu, ecv) ∧ c.cls = .good
        ∧ um = (u - 4 * s.sgn * ecu + 8) / 16 ∧ vres = v - (-(16 * (s.cfg.mrows : Int)) + 4 * ecv)
        ∧ 100 * ((um - s.cfg.uc).natAbs : Int) ≤ 3 * s.cfg.uc ∧ vres.natAbs ≤ 2 * s.cfg.hc := by
  unfold State.closureMeasure
  cases hc : r.closure with
  | none => simp
  | some c =>
    dsimp only
    cases he : c.est with
    | none => simp [he]
    | some e =>
      obtain ⟨ecu, ecv⟩ := e
      dsimp only
      constructor
      · intro h
        obtain ⟨⟨good, near, level⟩, ⟨⟩⟩ := Option.ite_none_right_eq_some.mp h
        exact ⟨c, ecu, ecv, rfl, he, good, rfl, rfl, near, level⟩
      · rintro ⟨_, _, _, ⟨⟩, est, good, rfl, rfl, near, level⟩
        cases he.symm.trans est
        exact if_pos ⟨good, near, level⟩

/-! ### The closure run in CLOSING (08 R147) -/

/-- In CLOSING the closure window is not opened again. -/
theorem windowStep_closureRun {s : State} (closing : s.swc.state = .closing) (op : TrackOp) (r : FrameResult) :
    (s.windowStep op r).cvm.closureRun = s.cvm.closureRun := by
  rcases windowStep_ends s op r with ⟨sweeping, _⟩ | ⟨_, e⟩ | e
  · exact absurd (sweeping.symm.trans closing) (by decide)
  · rw [e, finishFrame_cvm, windowMissed_cvm]
  · rw [e, finishFrame_cvm]

theorem stallStep_closureRun {s : State} (closing : s.swc.state = .closing) (op : TrackOp) (r : FrameResult) :
    (s.stallStep op r).cvm.closureRun = s.cvm.closureRun := by
  have window (n : Nat) := windowStep_closureRun (s := stallCounted s op n) closing op r
  unfold State.stallStep
  dsimp only
  split
  · exact window 0
  · split
    · rfl
    · exact window _

theorem paceStep_closureRun {s : State} (closing : s.swc.state = .closing) (op : TrackOp) (r : FrameResult) :
    (s.paceStep op r).cvm.closureRun = s.cvm.closureRun := by
  have stall (p : Pace) := stallStep_closureRun (s := { s with swc.pace := p }) closing op r
  unfold State.paceStep
  dsimp only
  split
  · exact stall _
  · split
    · rfl
    · exact stall _

theorem endSweep_finishFrame_cvm (s : State) (c : EndCause) : (s.endSweep c).finishFrame.cvm = s.cvm :=
  (finishFrame_cvm _).trans ((endSweep_frame s c).cvm (by decide))

theorem takeTracked_closureRun {s : State} {op : TrackOp} (hop : s.tku.op = some op) (closing : s.swc.state = .closing)
    {kind : KeyKind} (hk : kind ≠ .closure) (r : FrameResult) :
    (s.takeTracked op r kind).cvm.closureRun = s.cvm.closureRun := by
  obtain ⟨v, taken, e, _⟩ := takeTracked_of_storing hop (by unfold State.storing; rw [closing]; rfl) hk r
  have run : v.cvm.closureRun = s.cvm.closureRun := by rw [taken.1]
  have still : v.swc.state = .closing := by rw [taken.1]; exact closing
  rw [e]
  unfold afterKey
  split
  · exact run
  · exact (paceStep_closureRun still op r).trans run

/-- 08 R147: once the consensus has been offered, no later step of the decision changes the closure run. -/
theorem judgeKey_closureRun {s : State} {op : TrackOp} (hop : s.tku.op = some op) (closing : s.swc.state = .closing)
    (r : FrameResult) : (s.judgeKey op r).cvm.closureRun = s.cvm.closureRun := by
  unfold State.judgeKey
  dsimp only
  split
  · rw [endSweep_finishFrame_cvm]
  · split
    · rw [endSweep_finishFrame_cvm]
    · split
      · exact paceStep_closureRun closing op r
      · next kind test =>
        split
        · rw [endSweep_finishFrame_cvm]
        · unfold State.takeOrWait
          split
          · refine takeTracked_closureRun hop closing ?_ r
            rintro rfl
            exact keyTests_ne_closure s r test
          · rfl

/-- 08 R147: a second qualifying frame in a row makes the acceptance due. -/
theorem keyDecision_of_second {s : State} {op : TrackOp} {r : FrameResult} {um vres : Int}
    (closing : s.swc.state = .closing) (ahead : 0 ≤ s.sgn * r.au)
    (measure : s.closureMeasure op.position r = some (um, vres)) (second : s.cvm.closureRun = 1) :
    s.keyDecision op r = s.setStage (.closureDue um vres) := by
  unfold State.keyDecision State.advanceOf
  rw [if_pos closing, if_pos ahead]
  simp only [measure]
  exact if_pos second

/-! ### The strip table (08 R149) -/

/-- 08 R149: a strip that is not held takes WRAP where it lies at or beyond Um. -/
def wrappedAt (q : Strip) (um : Int) : Strip :=
  { q with wrap := q.wrap || (decide (um ≤ (q.uStart : Int)) && !q.isHeld) }

theorem wrappedAt_eq (q : Strip) (um : Int) :
    (if um ≤ (q.uStart : Int) ∧ ¬ q.isHeld then { q with wrap := true } else q) = wrappedAt q um := by
  unfold wrappedAt
  by_cases beyond : um ≤ (q.uStart : Int) ∧ ¬ q.isHeld
  · rw [if_pos beyond]
    simp [beyond]
  · rw [if_neg beyond]
    have stays : (decide (um ≤ (q.uStart : Int)) && !q.isHeld) = false := by simpa using beyond
    rw [stays, Bool.or_false]

theorem closedAt_eq (q : Strip) (um : Int) (sent : Bool) : q.closedAt um sent =
    if q.index = ((um - 1) / 128).toNat then
      if q.state = .opened then { wrappedAt q um with width := (um - (q.uStart : Int)).toNat, last := true }
      else if q.state = .final ∧ sent = false then { q with wrap := true, last := true }
      else wrappedAt q um
    else wrappedAt q um := by
  unfold Strip.closedAt lastStripIndex
  rw [wrappedAt_eq]
  show (if q.index = _ then _ else wrappedAt q um) = _
  split
  · split
    · next opened => exact (if_pos opened).symm
    · next final =>
      have notOpen : q.state ≠ .opened := fun h => absurd (h.symm.trans final) (by decide)
      rw [if_neg notOpen]
      cases sent
      · exact (if_pos ⟨final, rfl⟩).symm
      · exact (if_neg (fun h => absurd h.2 (by decide))).symm
    · next sending =>
      have other (st : StripState) (ne : st ≠ .sending) : q.state ≠ st := fun h => ne (h.symm.trans sending)
      rw [if_neg (other .opened (by decide)), if_neg (fun h => other .final (by decide) h.1)]
  · rfl

/-- 08 R149: the transfer record counts the strips that have been SENDING (notes/assumptions/18.md). -/
theorem hasBeenSending_eq (s : State) (j : Nat) : s.hasBeenSending j = s.sentBefore j := by
  unfold State.hasBeenSending State.sentBefore
  split
  · next cutting => simp [cutting]
  · next empty _ => simp [empty]
  · next x hx other =>
    have ready : s.opu.state ≠ .cutting := fun h => other h
    simp [hx, ready]

/-! ### The acceptance (08 R148) -/

theorem notify_lku_congr {s t : State} (h : t.lku = s.lku) (b : NoticeBody) : (t.notify b).lku = (s.notify b).lku := by
  unfold State.notify
  rw [h]
  split <;> rfl

/-- 08 R148: Um, Vres and the result are fixed. -/
def closureFixed (s : State) (um vres : Int) : State :=
  { s with cvm.um := some um, cvm.vres := some vres, cvm.closureResult := some .accepted }

/-- 08 R148, R149: everything that an acceptance changes before the CLOSURE key. -/
theorem acceptClosure_eq (s : State) (r : FrameResult) (um vres : Int) : s.acceptClosure r um vres = { s with
    cvm := { s.cvm with
      um := some um, vres := some vres, closureResult := some .accepted
      strips := s.cvm.strips.map (fun q => q.closedAt um (s.hasBeenSending q.index)) }
    swc := { s.swc with closurePending := true }
    lku := (s.notify (.closureAccepted s.swc.id r.stored um vres (r.closure.getD default).m)).lku } := by
  show { ((closureFixed s um vres).notify _).closeTable um with swc.closurePending := true } = _
  rw [notify_eq, notify_lku_congr (s := s) (t := closureFixed s um vres) rfl]
  rfl

theorem exec_closureAccepted {s : State} {op : TrackOp} {r : FrameResult} {um vres : Int} (hop : s.tku.op = some op)
    (due : op.stage = .closureDue um vres) (hr : op.result = some r) (storing : s.storing = true) :
    exec .closureAccepted s = .next ((s.acceptClosure r um vres).takeOrWait op r .closure).settle := by
  show execClosureAccepted s = _
  unfold execClosureAccepted
  simp only [hop, due, hr]
  exact if_pos storing

/-- 08 R148: a CLOSURE key, taken or waiting, changes nothing of CVM. -/
theorem takeOrWait_closure_cvm (s : State) (op : TrackOp) (r : FrameResult) : (s.takeOrWait op r .closure).cvm = s.cvm := by
  unfold State.takeOrWait
  split
  · rw [takeTracked_of_recordedOnly (.inr rfl)]
    exact (endSweep_finishFrame_cvm (closureTaken s op r) .closed).trans ((recordKey_frame s _).cvm (by decide))
  · rfl

theorem takeOrWait_notices (s : State) (op : TrackOp) (r : FrameResult) (kind : KeyKind) :
    s.NoticesKept (s.takeOrWait op r kind) := by
  unfold State.takeOrWait
  split
  · exact (takeTracked_decides s op r kind).notices
  · exact .of_lku rfl

/-- 04 R78, 08 R148: a CLOSURE key taken at once: its record and seam job, the sweep ended with CLOSED, and its slot KEY where no selection is left. -/
theorem closureKey_settled {s : State} {op : TrackOp} (hop : s.tku.op = some op) (storing : s.storing = true)
    (resources : s.keyResources = true) (r : FrameResult) {t : State} (ht : t = (s.takeOrWait op r .closure).settle) :
    t.swc.closurePending = false ∧ t.swc.endCause = some .closed
      ∧ t.swc.keys = s.swc.keys ++ [s.keyRecordOf op.slot op.position r .closure]
      ∧ t.smu.queue = s.smu.queue ++ [.ordinary s.swc.keys.length]
      ∧ (op.selections = [] → t.slotState op.slot = .key ∧ t.tku.op = none) := by
  have taken : s.takeOrWait op r .closure = (recordedOnly s op r .closure).finishFrame :=
    (if_pos resources).trans (takeTracked_of_recordedOnly (.inr rfl) op r)
  have recorded := recordedOnly_recorded s op r .closure
  have pending := recordedOnly_closurePending s op r
  obtain ⟨cause, _⟩ := recordedOnly_closed storing op r
  obtain ⟨tku, _⟩ := recordedOnly_keeps s op r .closure
  rw [taken] at ht
  generalize recordedOnly s op r .closure = u at ht recorded pending cause tku
  have swc := finishFrame_swc_eq u
  have settled := recorded.finished.settled
  subst ht
  refine ⟨by rw [settle_swc_eq, swc, pending], by rw [settle_endCause, swc, cause], settled.keys, settled.queue,
    fun none => ?_⟩
  have key := recorded.finished_key (by rw [tku, hop]) none rfl
  have more : u.finishFrame.swc.keys ≠ [] := by rw [recorded.finished.keys]; simp
  unfold State.slotState at *
  rw [settle_igu more, settle_tku]
  exact key

/-- 04 R71: a CLOSURE key without its resources waits. -/
theorem closureKey_waits {s : State} (storing : s.storing = true) (short : s.keyResources = false) (op : TrackOp)
    (r : FrameResult) : ((s.takeOrWait op r .closure).settle).swc = s.swc
      ∧ ((s.takeOrWait op r .closure).settle).igu = s.igu := by
  have waits : s.takeOrWait op r .closure = s.setStage (.keyWaiting .closure) := if_neg (by rw [short]; decide)
  rw [waits, settle_eq (s := s.setStage (.keyWaiting .closure)) (storing_not_finishing storing)]
  exact ⟨rfl, rfl⟩

/-- Settles O31: the acceptance, then the CLOSURE key taken or waiting; and the closure run as the offered consensus sets it. -/
theorem closureAccepted : Obligations.ClosureAccepted := by
  refine ⟨fun s op r um vres hop due hr storing => ?_, closureMeasure_iff,
    fun s op r hop closing other => ?_, fun s op r um vres hop closing ahead measure => ⟨fun second => ?_, fun first => ?_⟩⟩
  · have run := exec_closureAccepted hop due hr storing
    have accepted := acceptClosure_eq s r um vres
    have noticed := notify_noticed s (.closureAccepted s.swc.id r.stored um vres (r.closure.getD default).m)
    generalize s.acceptClosure r um vres = a at run accepted
    have lku : a.lku = _ := congrArg State.lku accepted
    have cvm := (settle_cvm (a.takeOrWait op r .closure)).trans (takeOrWait_closure_cvm a op r)
    have storingA : a.storing = true := by rw [accepted]; exact storing
    have resources : a.keyResources = s.keyResources := by rw [accepted]; rfl
    have record : a.keyRecordOf op.slot op.position r .closure = s.keyRecordOf op.slot op.position r .closure := by
      rw [accepted]; rfl
    refine ⟨_, run, by rw [cvm, accepted], by rw [cvm, accepted], by rw [cvm, accepted], fun ready => ?_, fun short => ?_,
      ?_, by rw [cvm, accepted], ?_⟩
    · obtain ⟨pending, cause, keys, queue, slot⟩ := closureKey_settled (s := a) (op := op) (by rw [accepted]; exact hop)
        storingA (resources.trans ready) r rfl
      have sameKeys : a.swc.keys = s.swc.keys := by rw [accepted]
      have sameSmu : a.smu = s.smu := by rw [accepted]
      rw [record, sameKeys] at keys
      rw [sameKeys, sameSmu] at queue
      exact ⟨pending, cause, ⟨_, keys, source_closure r.cls, rfl, rfl,
        fun c ecu ecv hc est => keyRecordOf_of_closure s _ _ hc est⟩, queue, slot⟩
    · obtain ⟨swc, igu⟩ := closureKey_waits storingA (resources.trans short) op r
      rw [swc, igu, accepted]
      exact ⟨rfl, rfl, rfl, rfl⟩
    · rw [cvm, accepted]
      refine List.map_congr_left fun q _ => ?_
      rw [closedAt_eq, hasBeenSending_eq]
      rfl
    · exact (noticed.kept (.of_lku lku)).kept ((takeOrWait_notices a op r .closure).trans (settle_notices _))
  · rw [decideFrame_of_sweep hop (.inr closing),
      keyDecision_of_not_offered (s := (placed s op r).countFrame r) (op := placedOp s op r) closing ?_]
    · exact judgeKey_closureRun (s := ((placed s op r).countFrame r).setClosureRun 0) (op := placedOp s op r) rfl closing r
    · exact fun offered => other.elim (fun back => absurd offered.1 (not_le.mpr back)) offered.2
  · rw [decideFrame_of_sweep hop (.inr closing),
      keyDecision_of_second (s := (placed s op r).countFrame r) (op := placedOp s op r) closing ahead measure second]
    exact ⟨rfl, rfl, _, rfl, rfl⟩
  · have offered : s.closureMeasure (s.positionOf r) r ≠ none := by rw [measure]; nofun
    rw [decideFrame_of_sweep hop (.inr closing), keyDecision_of_offered (s := (placed s op r).countFrame r)
      (op := placedOp s op r) closing ⟨ahead, offered⟩ first]
    exact judgeKey_closureRun (s := ((placed s op r).countFrame r).setClosureRun 1) (op := placedOp s op r) rfl closing r

end Sys2Proof.Proofs
end

section
/-! What the session requests, GYRO.PUT and OUTPUT.RESUME can do (05 R82, R85, R86, 03 R48, 09 R159), said once for every statement about all commands. -/
namespace Sys2Proof.Proofs
open Sys2Proof.Machine

/-- 05 R82: SESSION.ARM waits, is answered, or begins a build. -/
theorem sessionArm_cases (s : State) (body : List Byte) : s.sessionArm body = s
    ∨ (∃ b, s.sessionArm body = s.answer b)
    ∨ ∃ c, s.sessionArm body = { s with swc.arming := some c, igu.columnMap := none } := by
  unfold State.sessionArm
  split
  · exact .inl rfl
  · split
    · split
      · exact .inr (.inl ⟨_, rfl⟩)
      · exact .inr (.inr ⟨_, rfl⟩)
    · exact .inr (.inl ⟨_, rfl⟩)

/-- 05 R85: COLUMN_MAP_BUILT arms the session or finds no build to complete. -/
theorem columnMapBuilt_cases (s : State) : s.columnMapBuilt = s ∨ ∃ c, s.columnMapBuilt = s.armed c := by
  unfold State.columnMapBuilt
  split
  · split
    · exact .inr ⟨_, rfl⟩
    · exact .inl rfl
  · exact .inl rfl

/-- 05 R86: SESSION.TUNE is answered, with or without a change of the tunables in force or pending. -/
theorem sessionTune_cases (s : State) (body : List Byte) : ∃ config pending b, s.sessionTune body
    = ({ s with swc := { s.swc with config := config, pendingTunables := pending } } : State).answer b := by
  unfold State.sessionTune
  split
  · exact ⟨s.swc.config, s.swc.pendingTunables, _, rfl⟩
  · split
    · exact ⟨_, s.swc.pendingTunables, _, rfl⟩
    · split
      · exact ⟨s.swc.config, _, _, rfl⟩
      · exact ⟨s.swc.config, s.swc.pendingTunables, _, rfl⟩

/-- 03 R48: GYRO.PUT is answered, with or without a change of the accumulator. -/
theorem gyroPut_cases (s : State) (body : List Byte) :
    ∃ g b, s.gyroPut body = ({ s with tku.gyro := g } : State).answer b := by
  unfold State.gyroPut
  split
  · exact ⟨s.tku.gyro, _, rfl⟩
  · split
    · exact ⟨_, _, rfl⟩
    · exact ⟨s.tku.gyro, _, rfl⟩

/-- 09 R159: OUTPUT.RESUME is refused, or ends the halt in the output blocks and the link unit and then settles. -/
theorem outputResume_cases (s : State) (action : Option ResumeAction) : (∃ b, s.outputResume action = s.answer b)
    ∨ ∃ u, SameOutside [.blu, .cvm, .opu, .lku] s u ∧ s.outputResume action = u.settle := by
  have resumed {t : State} (f : SameOutside [.blu, .cvm, .opu, .lku] s t) :
      SameOutside [.blu, .cvm, .opu, .lku] s (t.answerCode .ok) := f.comp (answer_frame t _) (by decide)
  unfold State.outputResume
  split
  · exact .inl ⟨_, rfl⟩
  · split
    · split
      · exact .inr ⟨_, resumed ((endHalt_frame s).mono (by decide)), rfl⟩
      · split
        · exact .inr ⟨_, resumed ((retryStrip_frame s _).mono (by decide)), rfl⟩
        · exact .inr ⟨_, resumed (skipStrip_frame s _), rfl⟩
    · exact .inl ⟨_, rfl⟩

/-- A request without fields is refused for any body, or executed. -/
theorem withoutFields_cases (s t : State) (body : List Byte) :
    s.withoutFields body t = t ∨ ∃ b, s.withoutFields body t = s.answer b := by
  unfold State.withoutFields
  split
  · exact .inl rfl
  · exact .inr ⟨_, rfl⟩

end Sys2Proof.Proofs
end

section
/-! The session id (05 R81): every command keeps it but the completion of an ARM and pin reset: the settled O12. -/
namespace Sys2Proof.Proofs
open Sys2Proof.Machine

/-! ### The id stays -/

/-- From `s` to `t` the session id stays. -/
def IdStays (s t : State) : Prop := t.swc.id = s.swc.id

theorem IdStays.refl (s : State) : IdStays s s := rfl

theorem IdStays.trans {s t u : State} (h : IdStays s t) (k : IdStays t u) : IdStays s u := Eq.trans k h

theorem IdStays.of_frame {l : List Block} {s t : State} (f : SameOutside l s t) (swc : Block.swc ∉ l) : IdStays s t :=
  congrArg Swc.id (f.swc swc)

theorem answer_idStays (s : State) (b : ReplyBody) : IdStays s (s.answer b) := .of_frame (answer_frame s b) (by decide)

theorem IdStays.answered {s t : State} (h : IdStays s t) (b : ReplyBody) : IdStays s (t.answer b) :=
  h.trans (answer_idStays t b)

theorem IdStays.settled {s t : State} (h : IdStays s t) : IdStays s t.settle := h.trans (settle_kept t).sameId

/-! ### The requests of the session and the output halt -/

theorem sessionArm_idStays (s : State) (body : List Byte) : IdStays s (s.sessionArm body) := by
  rcases sessionArm_cases s body with e | ⟨b, e⟩ | ⟨c, e⟩ <;> rw [e]
  · exact .refl s
  · exact answer_idStays s b
  · rfl

theorem sessionStart_idStays (s : State) : IdStays s s.sessionStart := by
  have started : IdStays s s.start := by
    unfold IdStays State.start
    rw [enterState_swc]
  unfold State.sessionStart
  split
  · exact started.answered _
  · exact answer_idStays s _

theorem sessionTune_idStays (s : State) (body : List Byte) : IdStays s (s.sessionTune body) := by
  obtain ⟨config, pending, b, e⟩ := sessionTune_cases s body
  rw [e]
  exact IdStays.answered rfl b

theorem sessionStop_idStays (s : State) : IdStays s s.sessionStop := by
  unfold State.sessionStop
  split
  · exact (IdStays.answered (endSweep_kept s .userStop).sameId _).settled
  · exact answer_idStays s _

/-- The SESSION notice and the answer that end an abort or a release keep the id. -/
theorem IdStays.noticed {s t : State} (h : IdStays s t) (before after : SessionState) (b : ReplyBody) :
    IdStays s ((t.notifySession before after).answer b) :=
  (h.trans (.of_frame (notifySession_frame t before after) (by decide))).answered b

theorem sessionAbort_idStays (s : State) : IdStays s s.sessionAbort := by
  unfold State.sessionAbort
  split
  · exact answer_idStays s _
  · exact IdStays.noticed (t := s.abandon) rfl _ _ _

theorem sessionRelease_idStays (s : State) : IdStays s s.sessionRelease := by
  unfold State.sessionRelease
  split
  · exact IdStays.noticed (t := s.release) rfl _ _ _
  · exact answer_idStays s _

theorem gyroPut_idStays (s : State) (body : List Byte) : IdStays s (s.gyroPut body) := by
  obtain ⟨g, b, e⟩ := gyroPut_cases s body
  rw [e]
  exact IdStays.answered rfl b

theorem outputResume_idStays (s : State) (action : Option ResumeAction) : IdStays s (s.outputResume action) := by
  rcases outputResume_cases s action with ⟨b, e⟩ | ⟨u, f, e⟩ <;> rw [e]
  · exact answer_idStays s b
  · exact (IdStays.of_frame f (by decide)).settled

/-- 09 R159: a row of OUTPUT.RESUME leaves the action of the other row to it. -/
theorem resumeRow_idStays (s : State) (otherRow : Prop) [Decidable otherRow] (action : Option ResumeAction) :
    IdStays s (if otherRow then s else s.outputResume action) := by
  split
  · exact .refl s
  · exact outputResume_idStays s action

theorem engineReset_idStays (s : State) :
    IdStays s (if s.psc.burn.isSome then s.answerCode .busy else s.engineClears.answerCode .ok) := by
  split
  · exact answer_idStays s _
  · exact IdStays.answered (t := s.engineClears) rfl _

/-! ### Every command -/

theorem execute_idStays {s : State} {type : Byte} {handle : List Byte → State} (h : ∀ body, IdStays s (handle body)) :
    LeadsTo (s.execute type handle) (IdStays s) := execute_leadsTo (IdStays.refl s) h

theorem executeFieldless_idStays {s t : State} {type : Byte} (h : IdStays s t) :
    LeadsTo (s.execute type (fun body => s.withoutFields body t)) (IdStays s) := by
  refine execute_idStays (fun body => ?_)
  rcases withoutFields_cases s t body with e | ⟨b, e⟩ <;> rw [e]
  · exact h
  · exact answer_idStays s b

/-- The units' commands keep the id as their shared operations do, the commands outside SWC by their frame; the others are the requests above. -/
theorem exec_idStays {c : Instr} (build : c ≠ .columnMapBuilt) (reset : c ≠ .pinReset) (s : State) :
    LeadsTo (exec c s) (IdStays s) := by
  by_cases unit : unitCommand c = true
  · exact (exec_kept unit s).mono (fun _ k => k.sameId)
  by_cases outside : Block.igu ∉ touches c ∧ Block.tku ∉ touches c ∧ Block.swc ∉ touches c
  · obtain ⟨igu, tku, swc⟩ := outside
    exact (exec_outside igu tku s).mono (fun _ f => .of_frame f swc)
  cases c with
  | sessionArm => exact execute_idStays (sessionArm_idStays s)
  | sessionStart => exact executeFieldless_idStays (sessionStart_idStays s)
  | sessionTune => exact execute_idStays (sessionTune_idStays s)
  | sessionStop => exact executeFieldless_idStays (sessionStop_idStays s)
  | sessionAbort => exact executeFieldless_idStays (sessionAbort_idStays s)
  | sessionRelease => exact executeFieldless_idStays (sessionRelease_idStays s)
  | gyroPut => exact execute_idStays (gyroPut_idStays s)
  | outputResumeRetry => exact execute_idStays (fun body => resumeRow_idStays s (resumeBody body = some .skip) _)
  | outputResumeSkip => exact execute_idStays (fun body => resumeRow_idStays s (resumeBody body = some .retry) _)
  | engineReset => exact executeFieldless_idStays (engineReset_idStays s)
  | columnMapBuilt => exact absurd rfl build
  | pinReset => exact absurd rfl reset
  | _ => simp [unitCommand, touches] at unit outside

/-! ### The two commands that change it -/

/-- What a completed ARM leaves of SWC's record. -/
theorem armed_swc (s : State) (c : SessionConfig) : (s.armed c).swc = { s.swc with
    state := .armed, keys := [], pendingTunables := none, decided := none, config := some c
    id := if s.swc.id = 65535 then 1 else s.swc.id + 1, arming := none } := by
  unfold State.armed
  rw [(answer_frame _ _).swc (by decide), enterState_swc]
  rfl

theorem columnMapBuilt_id (s : State) : s.columnMapBuilt.swc.id = s.swc.id
    ∨ s.columnMapBuilt.swc.id = if s.swc.id = 65535 then 1 else s.swc.id + 1 := by
  rcases columnMapBuilt_cases s with e | ⟨c, e⟩ <;> rw [e]
  · exact .inl rfl
  · exact .inr (congrArg Swc.id (armed_swc s c))

/-- Settles O12: the id is a part of SWC's record that only the arming of the session and pin reset write. -/
theorem sessionIdChanges : Obligations.SessionIdChanges := by
  refine ⟨fun c s t build reset run => exec_idStays build reset s t run, fun s t run => ?_, fun s t run => ?_⟩
  · exact execute_leadsTo (P := fun t => t.swc.id = s.swc.id ∨ t.swc.id = if s.swc.id = 65535 then 1 else s.swc.id + 1)
      (.inl rfl) (fun _ => columnMapBuilt_id s) t run
  · cases run
    exact congrArg Swc.id ((load_frame _).swc (by decide))

end Sys2Proof.Proofs
end

section
/-! The dispatch of the head request and the queries (11 R172, R173, R178, R181, 05 R105): the settled O48. -/
namespace Sys2Proof.Proofs
open Sys2Proof.Machine

/-- 11 R172: a type that is not a request's is answered with its reply type 0x80. -/
theorem replyType_of_unknown {type : Byte} (h : requestTypes.contains type = false) : replyType type = 0x80#8 := by
  unfold replyType
  rw [if_neg (by rw [h]; decide)]

theorem exec_unknownType_of_executes {s : State} {type tag : Byte} {body : List Byte} {rest : List Request}
    (h : s.Executes type tag body rest) (unknown : requestTypes.contains type = false) :
    exec .unknownType s = .next (s.answer (.unknown type)) := by
  obtain ⟨executing, requests⟩ := h
  have head : s.headRequest (fun t => !requestTypes.contains t) = some { type := type, tag := tag, body := body } := by
    unfold State.headRequest
    rw [if_pos executing, requests, List.head?_cons]
    exact Option.filter_some_pos (by simpa using unknown)
  show execUnknownType s = _
  unfold execUnknownType
  rw [head]

/-- 11 R178, R179: STATUS.GET answers with the record as it stands, and the flags it reports are cleared. -/
theorem statusGet_answered {s : State} {tag : Byte} {rest : List Request} (h : s.Executes 0x02#8 tag [] rest) :
    (s.answer (.status s.statusRecord)).clearEventFlags
      = { s with lku := { (s.lku.answered rest 0x82#8 tag (.status s.statusRecord)) with flags := {} } } := by
  rw [answer_of_requests h.2 _ (rt := 0x82#8) (by decide)]
  rfl

/-- 05 R105: the canvas width is Um where it is fixed, else the right edge of the last key, else 0. -/
theorem canvasWidth_eq {s : State} {width : Int} (fixed : ∀ um, s.cvm.um = some um → width = um)
    (keyed : ∀ k, s.cvm.um = none → s.swc.keys.getLast? = some k → width = (k.u + 8) / 16 + s.cfg.wf)
    (empty : s.cvm.um = none → s.swc.keys = [] → width = 0) : s.canvasWidth = width := by
  unfold State.canvasWidth
  cases hum : s.cvm.um with
  | some um => exact (fixed um hum).symm
  | none =>
    cases hlast : s.swc.keys.getLast? with
    | none =>
      have none : s.swc.keys = [] := List.getLast?_eq_none_iff.mp hlast
      rw [empty hum none, none]
      rfl
    | some k =>
      have some : s.swc.keys.isEmpty = false := by
        cases hk : s.swc.keys with
        | nil => rw [hk] at hlast; cases hlast
        | cons => rfl
      have last : s.lastKey = k := by rw [State.lastKey, hlast]; rfl
      rw [keyed k hum hlast, some, last]
      rfl

theorem exec_sessionSummaryGet_of_executes {s : State} {tag : Byte} {rest : List Request}
    (h : s.Executes 0x16#8 tag [] rest) : exec .sessionSummaryGet s = .next s.sessionSummary :=
  execute_of_executes h (fun body => s.withoutFields body s.sessionSummary)

/-- Settles O48: each query's handler is its record's answer. -/
theorem dispatchAndQueries : Obligations.DispatchAndQueries := by
  refine ⟨fun s idle waiting room => ?_, fun s type tag body rest h unknown => ?_, fun s tag rest h => ?_, rfl,
    fun s tag rest h => ?_, rfl, rfl, rfl, rfl, fun s tag rest h => ⟨fun notFinishing notDone => ?_, fun width ended fixed keyed empty => ?_⟩⟩
  · exact if_pos ⟨idle, waiting, room⟩
  · rw [exec_unknownType_of_executes h unknown, answer_of_requests h.2 _ (replyType_of_unknown unknown)]
  · have run : exec .identGet s = .next (s.answer .ident) :=
      execute_of_executes h (fun body => s.withoutFields body (s.answer .ident))
    rw [run, answer_of_requests h.2 _ (rt := 0x81#8) (by decide)]
  · exact ⟨_, execute_of_executes h (fun body => s.withoutFields body (s.answer (.status s.statusRecord)).clearEventFlags),
      statusGet_answered h⟩
  · rw [exec_sessionSummaryGet_of_executes h, State.sessionSummary, if_neg (not_or.mpr ⟨notFinishing, notDone⟩)]
    exact congrArg Host.Outcome.next (answer_of_requests h.2 _ (by decide))
  · rw [exec_sessionSummaryGet_of_executes h, State.sessionSummary, if_pos ended,
      answer_of_requests h.2 _ (rt := 0x96#8) (by decide), ← canvasWidth_eq fixed keyed empty]
    rfl

end Sys2Proof.Proofs
end

section
/-! SESSION.START, TUNE and STOP (05 R86, R88, R101): the settled O53. -/
namespace Sys2Proof.Proofs
open Sys2Proof.Machine

/-- An answer leaves the notices. -/
theorem answeredOnly_notices (s : State) (rest : List Request) (type tag : Byte) (b : ReplyBody) :
    s.NoticesKept (s.answeredOnly rest type tag b) := ⟨⟨[], (List.append_nil _).symm⟩, id⟩

/-! ### START (05 R88) -/

theorem start_igu (s : State) : s.start.igu = { s.igu with
    lastCounter := none, nextStored := 0, dropped := 0, geoRun := 0, faultReport := false } := by
  unfold State.start
  rw [enterState_igu]

theorem start_tku (s : State) : s.start.tku = { s.tku with gyro := {}, held := (0, 0), step := (0, 0) } := by
  unfold State.start
  rw [(enterState_frame _ _).tku (by decide)]

theorem start_swc (s : State) : s.start.swc = { s.swc with
    state := s.cfg.direction.firstState, endCause := none, decided := s.cfg.direction.decided, cal := {}
    highWater := none, stallCount := 0, pace := {}, closurePending := false, framesPerKey := 0, gyroSinceKey := false
    lastResult := none, tail := .notMade } := by
  unfold State.start
  rw [enterState_swc]

theorem start_blu (s : State) :
    s.start.blu = { s.blu with frontier := 0, mark := none, entered := 0, finalEntered := false } := by
  unfold State.start
  rw [(enterState_frame _ _).blu (by decide)]

/-- 05 R89: the SESSION notice of START. -/
def startNotice (s : State) : NoticeBody := .session s.swc.id s.swc.state s.cfg.direction.firstState none
  s.cfg.direction.decided s.swc.keys.length 0

/-- 05 R88, R89: START does to the link unit what its SESSION notice does. -/
theorem start_lku (s : State) : s.start.lku = (s.notify (startNotice s)).lku := by
  unfold State.start State.enterState State.notifySession
  dsimp only
  rw [ite_self]
  refine notify_lku_congr ?_ _
  rfl

theorem exec_sessionStart_of_executes {s : State} {tag : Byte} {rest : List Request} (h : s.Executes 0x11#8 tag [] rest) :
    exec .sessionStart s = .next s.sessionStart :=
  execute_of_executes h (fun body => s.withoutFields body s.sessionStart)

theorem sessionStart_of_armed {s : State} {tag : Byte} {rest : List Request} (h : s.Executes 0x11#8 tag [] rest)
    (armed : s.swc.state = .armed) : s.sessionStart = s.start.answeredOnly rest 0x91#8 tag (.result .ok) := by
  obtain ⟨requests, _⟩ := notify_requests s (startNotice s)
  have waiting : s.start.lku.requests = _ := (congrArg Lku.requests (start_lku s)).trans (requests.trans h.2)
  unfold State.sessionStart
  rw [if_pos armed]
  exact answer_of_requests waiting _ (by decide)

/-! ### TUNE (05 R86) -/

theorem exec_sessionTune_of_executes {s : State} {tag : Byte} {body : List Byte} {rest : List Request}
    (h : s.Executes 0x12#8 tag body rest) : exec .sessionTune s = .next (s.sessionTune body) :=
  execute_of_executes h s.sessionTune

theorem sessionTune_of_bad {s : State} {tag : Byte} {body : List Byte} {rest : List Request}
    (h : s.Executes 0x12#8 tag body rest) (bad : tuneBody body = none) :
    s.sessionTune body = s.answeredOnly rest 0x92#8 tag (.result .badField) := by
  unfold State.sessionTune
  rw [bad]
  exact answer_of_requests h.2 _ (by decide)

section
variable {s : State} {tag : Byte} {body : List Byte} {rest : List Request} {u : Tunables}

theorem sessionTune_of_armed (h : s.Executes 0x12#8 tag body rest) (read : tuneBody body = some u) {c : SessionConfig}
    (config : s.swc.config = some c) (armed : s.swc.state = .armed) : s.sessionTune body
      = { (s.answeredOnly rest 0x92#8 tag (.tunables (c.tune u))) with swc.config := some (c.tune u) } := by
  have cfg : s.cfg = c := by rw [State.cfg, config]; rfl
  unfold State.sessionTune
  rw [read]
  dsimp only
  rw [if_pos armed, cfg, config]
  exact answer_of_requests (s := { s with swc.config := some (c.tune u) }) h.2 _ (by decide)

theorem sessionTune_of_storing (h : s.Executes 0x12#8 tag body rest) (read : tuneBody body = some u)
    (storing : s.storing = true) : s.sessionTune body
      = { (s.answeredOnly rest 0x92#8 tag (.pendingSet u)) with swc.pendingTunables := some u } := by
  have notArmed : s.swc.state ≠ .armed := fun armed => by rw [State.storing, armed] at storing; cases storing
  unfold State.sessionTune
  rw [read]
  dsimp only
  rw [if_neg notArmed, if_pos storing]
  exact answer_of_requests (s := { s with swc.pendingTunables := some u }) h.2 _ (by decide)

theorem sessionTune_of_elsewhere (h : s.Executes 0x12#8 tag body rest) (read : tuneBody body = some u)
    (notArmed : s.swc.state ≠ .armed) (resting : s.storing = false) :
    s.sessionTune body = s.answeredOnly rest 0x92#8 tag (.result .wrongState) := by
  unfold State.sessionTune
  rw [read]
  dsimp only
  rw [if_neg notArmed, if_neg (by rw [resting]; decide)]
  exact answer_of_requests h.2 _ (by decide)

end

/-- A state that is neither ARMED nor a storing state takes no TUNE. -/
theorem not_armed_or_storing {s : State}
    (h : s.swc.state = .idle ∨ s.swc.state = .finishing ∨ s.swc.state = .done) :
    s.swc.state ≠ .armed ∧ s.storing = false := by
  unfold State.storing
  rcases h with h | h | h <;> rw [h] <;> exact ⟨by decide, rfl⟩

theorem tunableBytesAt_of_unnamed {place : Nat} (h : 7 ≤ place) : tunableBytesAt place = none := by
  obtain ⟨k, rfl⟩ := Nat.exists_eq_add_of_le' h
  rfl

theorem tuneBody_cons {n : Byte} (h : n ≠ 0#8) (rest : List Byte) : tuneBody (n :: rest) = readTunables {} n.toNat rest :=
  if_neg h

/-- 05 R86, R83: a body of items gives each tunable what its items come to. -/
theorem tuneBody_items {items : List (Nat × Nat)} (some : items ≠ []) (few : items.length < 256) (named : TuneItems items) :
    tuneBody (BitVec.ofNat 8 items.length :: items.flatMap tuneItem) = Option.some
      { overlapPct := tunedTo items 0, radius := tunedTo items 1, lockCount := tunedTo items 2
        coastLimit := tunedTo items 3, fastFrames := tunedTo items 4, slowFrames := tunedTo items 5
        stallFrames := tunedTo items 6 } := by
  have count : (BitVec.ofNat 8 items.length).toNat = items.length := by
    rw [BitVec.toNat_ofNat]
    exact Nat.mod_eq_of_lt few
  have positive : BitVec.ofNat 8 items.length ≠ 0#8 := fun zero => by
    rw [zero] at count
    exact some (List.eq_nil_of_length_eq_zero count.symm)
  have read := readTunables_items items named {} 0 []
  rw [Nat.add_zero, List.append_nil, put_items items named] at read
  simp only [Option.or_none] at read
  rw [tuneBody_cons positive, count, read]
  rfl

/-- 05 R86: a body that names anything but a tunable is refused, whatever stands before or behind it. -/
theorem tuneBody_of_unnamed {items : List (Nat × Nat)} {n place : Byte} (more : List Byte) (named : TuneItems items)
    (reached : items.length < n.toNat) (unnamed : 7 ≤ place.toNat) :
    tuneBody (n :: items.flatMap tuneItem ++ place :: more) = none := by
  have positive : n ≠ 0#8 := fun zero => by rw [zero] at reached; exact absurd reached (Nat.not_lt_zero _)
  obtain ⟨left, count⟩ : ∃ left, n.toNat = items.length + (left + 1) := ⟨n.toNat - items.length - 1, by omega⟩
  rw [List.cons_append, tuneBody_cons positive, count, readTunables_items items named]
  unfold readTunables
  rw [tunableBytesAt_of_unnamed unnamed]

/-! ### STOP (05 R101) -/

theorem exec_sessionStop_of_executes {s : State} {tag : Byte} {rest : List Request} (h : s.Executes 0x13#8 tag [] rest) :
    exec .sessionStop s = .next s.sessionStop :=
  execute_of_executes h (fun body => s.withoutFields body s.sessionStop)

/-- The state after an accepted STOP, before it settles. -/
def stopped (s : State) (rest : List Request) (tag : Byte) : State :=
  (s.endSweep .userStop).answeredOnly rest 0x93#8 tag (.result .ok)

theorem sessionStop_of_storing {s : State} {tag : Byte} {rest : List Request} (h : s.Executes 0x13#8 tag [] rest)
    (storing : s.storing = true) (clear : s.swc.closurePending = false) :
    s.sessionStop = (stopped s rest tag).settle := by
  have requests : (s.endSweep .userStop).lku.requests = _ := (endSweep_kept s .userStop).link.1.trans h.2
  unfold State.sessionStop
  rw [if_pos ⟨storing, by rw [clear]; decide⟩, State.answerCode, answer_of_requests requests _ (rt := 0x93#8) (by decide)]
  rfl

theorem sessionStop_of_refused {s : State} {tag : Byte} {rest : List Request} (h : s.Executes 0x13#8 tag [] rest)
    (refused : s.storing = false ∨ s.swc.closurePending = true) :
    s.sessionStop = s.answeredOnly rest 0x93#8 tag (.result .wrongState) := by
  unfold State.sessionStop
  rw [if_neg (fun taken => refused.elim (fun r => by rw [r] at taken; exact absurd taken.1 (by decide)) taken.2)]
  exact answer_of_requests h.2 _ (by decide)

/-- Settles O53: START's record is the cleared one with its notice, TUNE's body is read item by item, and STOP is the end of the sweep. -/
theorem startTuneStop : Obligations.StartTuneStop := by
  refine ⟨fun s tag rest h => ⟨fun armed => ?_, fun refused => ?_⟩,
    fun s tag body rest u c h read config => ⟨fun armed => ?_, fun storing => ?_, fun elsewhere => ?_⟩,
    fun items some few named => tuneBody_items some few named,
    fun items n place more named reached unnamed => tuneBody_of_unnamed more named reached unnamed, rfl,
    fun s tag body rest h bad => ?_, fun c u => rfl,
    fun s tag rest h => ⟨fun storing clear => ?_, fun refused => ?_⟩⟩
  · have noticed := ((notify_noticed s (startNotice s)).kept (.of_lku (start_lku s))).kept
      (answeredOnly_notices s.start rest 0x91#8 tag (.result .ok))
    have replies : s.start.lku.replies = s.lku.replies := by
      obtain ⟨_, _, replies, _⟩ := notify_requests s (startNotice s)
      rw [start_lku, replies]
    rw [startNotice, armed] at noticed
    have igu := start_igu s
    have tku := start_tku s
    have swc := start_swc s
    have blu := start_blu s
    refine ⟨_, (exec_sessionStart_of_executes h).trans (congrArg _ (sessionStart_of_armed h armed)), ?_⟩
    generalize s.start = t at noticed replies igu tku swc blu
    simp only [answeredOnly_blocks, answeredOnly_lku, Lku.answered, igu, tku, swc, blu, replies, true_and]
    exact ⟨by cases s.cfg.direction <;> rfl, by cases s.cfg.direction <;> rfl, noticed⟩
  · rw [exec_sessionStart_of_executes h, State.sessionStart, if_neg refused]
    exact congrArg Host.Outcome.next (answer_of_requests h.2 _ (by decide))
  · rw [exec_sessionTune_of_executes h, sessionTune_of_armed h read config armed]
  · rw [exec_sessionTune_of_executes h, sessionTune_of_storing h read storing]
  · obtain ⟨notArmed, resting⟩ := not_armed_or_storing elsewhere
    rw [exec_sessionTune_of_executes h, sessionTune_of_elsewhere h read notArmed resting]
  · rw [exec_sessionTune_of_executes h, sessionTune_of_bad h bad]
  · obtain ⟨requests, _, replies⟩ := (settle_kept (stopped s rest tag)).link
    obtain ⟨_, _, before⟩ := (endSweep_kept s .userStop).link
    have ended : (stopped s rest tag).swc.endCause = some .userStop := endSweep_endCause storing _
    refine ⟨_, (exec_sessionStop_of_executes h).trans (congrArg _ (sessionStop_of_storing h storing clear)),
      (settle_endCause _).trans ended, settle_finishing (endSweep_state storing _), (settle_keys _).trans (endSweep_keys s _),
      requests, replies.trans (congrArg (· ++ _) before), ?_⟩
    exact ((endSweep_noticed storing .userStop).kept (answeredOnly_notices _ rest _ tag _)).kept (settle_notices _)
  · rw [exec_sessionStop_of_executes h, sessionStop_of_refused h refused]

end Sys2Proof.Proofs
end

section
/-! The body of SESSION.ARM (05 R82, R83): its marked fields are read back row by row of the table, up to the first that fails. -/
namespace Sys2Proof.Proofs
open Sys2Proof.Machine

/-! ### One field -/

/-- The field of the model that a row of the table describes at a place of the body. -/
def rowField (place : Nat) (row : ArmRow) : ArmField :=
  if row.clamped then clampedField row.bytes row.lo row.hi (row.default.getD 0)
  else refusedField row.bytes (if place < 2 then frameSizeOk row.lo row.hi else fun v => decide (v ≤ row.hi)) row.default

/-- The fields of a list of rows, from a place of the body on. -/
def rowFields : Nat → List ArmRow → List ArmField
  | _, [] => []
  | place, row :: rows => rowField place row :: rowFields (place + 1) rows

/-- The model's fields are those of the table. -/
theorem armFields_eq : armFields = rowFields 0 armTable := rfl

/-- What the table's rows have in common: a clamped field has a default, and behind Wf and Hf a refused one starts at 0. -/
def RowOk (place : Nat) (row : ArmRow) : Prop :=
  (row.clamped = true → row.default.isSome = true) ∧ (row.clamped = false → 2 ≤ place → row.lo = 0)

/-- The rows of a list, from a place of the body on. -/
def RowsOk (place : Nat) (rows : List ArmRow) : Prop := ∀ j row, rows[j]? = some row → RowOk (place + j) row

theorem RowsOk.head {place : Nat} {row : ArmRow} {rows : List ArmRow} (h : RowsOk place (row :: rows)) : RowOk place row :=
  h 0 row rfl

theorem RowsOk.tail {place : Nat} {row : ArmRow} {rows : List ArmRow} (h : RowsOk place (row :: rows)) :
    RowsOk (place + 1) rows := fun j r hr => by
  have behind := h (j + 1) r hr
  rwa [← Nat.add_assoc, Nat.add_right_comm] at behind

/-- Every row of the table, by its place. -/
theorem armTable_ok : RowsOk 0 armTable := by
  intro j row hj
  have all : ∀ e ∈ armTable.zipIdx, (e.1.clamped = true → e.1.default.isSome = true)
      ∧ (e.1.clamped = false → 2 ≤ e.2 → e.1.lo = 0) := by decide
  rw [Nat.zero_add]
  exact all (row, j) (List.mem_zipIdx_iff_getElem?.mpr hj)

/-- What a field comes to: a value, or the texture_min of the named profile. -/
def armValue : Option Nat → ArmValue
  | some v => .value v
  | none => .fromProfile

/-- 05 R82 check 1: the model's field does with a mark what the table says. -/
theorem resolve_rowField {place : Nat} {row : ArmRow} (ok : RowOk place row) (prev : Option (List Nat)) (m : FieldMark) :
    (rowField place row).resolve place (prev.bind (fun l => l[place]?)) m = (armField prev place row m).map armValue := by
  obtain ⟨clamped, refused⟩ := ok
  cases m with
  | value v =>
    unfold rowField
    dsimp only [ArmField.resolve, armField]
    by_cases hc : row.clamped = true
    · rw [if_pos hc, if_pos hc]
      rfl
    · rw [if_neg hc, if_neg hc]
      by_cases early : place < 2
      · rw [if_pos early]
        simp only [refusedField, frameSizeOk, decide_eq_true_eq, early, true_imp_iff]
        split <;> rfl
      · have low := refused (Bool.eq_false_iff.mpr hc) (Nat.not_lt.mp early)
        rw [if_neg early]
        simp only [refusedField, low, decide_eq_true_eq, early, false_imp_iff, Nat.zero_le, true_and, and_true]
        split <;> rfl
  | useDefault =>
    unfold rowField
    dsimp only [ArmField.resolve, armField]
    by_cases hc : row.clamped = true
    · obtain ⟨d, hd⟩ := Option.isSome_iff_exists.mp (clamped hc)
      rw [if_pos hc, hd]
      rfl
    · rw [if_neg hc, Option.map_map]
      rfl
  | usePrevious =>
    dsimp only [ArmField.resolve, armField]
    rw [Option.map_map]
    rfl
  | useProfile =>
    show (if place = 16 then some ArmValue.fromProfile else none) = (if place = 16 then some none else none : Option _).map armValue
    split <;> rfl

theorem rowField_bytes (place : Nat) (row : ArmRow) : (rowField place row).bytes = row.bytes := by
  unfold rowField
  split <;> rfl

/-- 11 R171: a marked field is read back from the front of a body. -/
theorem takeMarked_bytes {n : Nat} {m : FieldMark} (fits : ∀ v, m = .value v → v < 256 ^ n) (rest : List Byte) :
    takeMarked n (m.bytes n ++ rest) = some (m, rest) := by
  cases m with
  | value v =>
    have len : (field n (v : Int)).length = n := field_length n v
    have first : (field n (v : Int) ++ rest).take n = field n v := List.take_left' len
    have second : (field n (v : Int) ++ rest).drop n = rest := List.drop_left' len
    show (if n ≤ (field n (v : Int) ++ rest).length then
      some (FieldMark.value (fieldNat ((field n (v : Int) ++ rest).take n)), (field n (v : Int) ++ rest).drop n) else none) = _
    rw [if_pos (by rw [List.length_append, len]; omega), first, second, fieldNat_of_lt (fits v rfl)]
  | useDefault | usePrevious | useProfile => rfl

/-! ### The whole body -/

/-- The bytes of marked fields, row by row. -/
def rowBytes (rows : List ArmRow) (marks : List FieldMark) : List Byte :=
  ((rows.zip marks).map (fun e => e.2.bytes e.1.bytes)).flatten

theorem armBytes_eq (marks : List FieldMark) : armBytes marks = rowBytes armTable marks := rfl

/-- Every value given fits the bytes of its row. -/
def MarksFit (rows : List ArmRow) (marks : List FieldMark) : Prop :=
  ∀ (j : Nat) (row : ArmRow) (v : Nat), rows[j]? = some row → marks[j]? = some (.value v) → v < 256 ^ row.bytes

section
variable {prev : Option (List Nat)} {place : Nat} {row : ArmRow} {rows : List ArmRow} {m : FieldMark} {marks : List FieldMark}

theorem MarksFit.tail (h : MarksFit (row :: rows) (m :: marks)) : MarksFit rows marks := fun j => h (j + 1)

/-- The first field is taken off the body and comes to what the table says. -/
theorem readArm_cons (ok : RowOk place row) (fit : MarksFit (row :: rows) (m :: marks)) :
    readArm prev place (rowFields place (row :: rows)) (rowBytes (row :: rows) (m :: marks))
      = (armField prev place row m).elim (.error (some place)) (fun v =>
          (readArm prev (place + 1) (rowFields (place + 1) rows) (rowBytes rows marks)).map (armValue v :: ·)) := by
  have taken : takeMarked (rowField place row).bytes (rowBytes (row :: rows) (m :: marks)) = some (m, rowBytes rows marks) := by
    rw [rowField_bytes]
    exact takeMarked_bytes (fun v hv => fit 0 row v rfl (congrArg some hv)) _
  generalize hrest : rowBytes rows marks = more at taken ⊢
  show readArm prev place (rowField place row :: rowFields (place + 1) rows) _ = _
  generalize rowFields (place + 1) rows = fields
  rw [readArm, taken]
  dsimp only
  rw [resolve_rowField ok]
  cases armField prev place row m with
  | none => rfl
  | some v =>
    dsimp only [Option.map_some, Option.elim_some]
    cases readArm prev (place + 1) fields more <;> rfl

end

/-- A body of which every field comes to something is read as all of it. -/
theorem readArm_of_given {prev : Option (List Nat)} {rows : List ArmRow} {place : Nat} {marks : List FieldMark}
    {given : List (Option Nat)} (ok : RowsOk place rows) (fit : MarksFit rows marks) (marked : marks.length = rows.length)
    (all : given.length = rows.length)
    (agree : ∀ (j : Nat) (row : ArmRow) (m : FieldMark), rows[j]? = some row → marks[j]? = some m →
      armField prev (place + j) row m = given[j]?) :
    readArm prev place (rowFields place rows) (rowBytes rows marks) = .ok (given.map armValue) := by
  induction rows generalizing place marks given with
  | nil =>
    rw [List.eq_nil_of_length_eq_zero all]
    rfl
  | cons row rows ih =>
    obtain ⟨m, marks, rfl⟩ := List.exists_cons_of_length_eq_add_one marked
    obtain ⟨v, given, rfl⟩ := List.exists_cons_of_length_eq_add_one all
    have head : armField prev place row m = some v := agree 0 row m rfl rfl
    have rest := ih (marks := marks) (given := given) ok.tail fit.tail (Nat.succ.inj marked) (Nat.succ.inj all)
      (fun j r m' hr hm => by
        rw [Nat.add_right_comm]
        exact agree (j + 1) r m' hr hm)
    rw [readArm_cons ok.head fit, head, Option.elim_some, rest]
    rfl

/-- A body is refused at its first field that comes to nothing. -/
theorem readArm_of_failed {prev : Option (List Nat)} {i : Nat} {rows : List ArmRow} {place : Nat} {marks : List FieldMark}
    {row : ArmRow} {m : FieldMark} (ok : RowsOk place rows) (fit : MarksFit rows marks)
    (before : ∀ (j : Nat) (row' : ArmRow) (m' : FieldMark), j < i → rows[j]? = some row' → marks[j]? = some m' →
      armField prev (place + j) row' m' ≠ none)
    (hrow : rows[i]? = some row) (hm : marks[i]? = some m) (failed : armField prev (place + i) row m = none) :
    readArm prev place (rowFields place rows) (rowBytes rows marks) = .error (some (place + i)) := by
  induction i generalizing place rows marks with
  | zero =>
    cases rows with
    | nil => cases hrow
    | cons r rows =>
      cases marks with
      | nil => cases hm
      | cons m' marks =>
        obtain rfl : r = row := Option.some.inj hrow
        obtain rfl : m' = m := Option.some.inj hm
        rw [readArm_cons ok.head fit, Nat.add_zero, show armField prev place r m' = none from failed]
        rfl
  | succ i ih =>
    cases rows with
    | nil => cases hrow
    | cons r rows =>
      cases marks with
      | nil => cases hm
      | cons m' marks =>
        obtain ⟨v, hv⟩ := Option.ne_none_iff_exists'.mp (before 0 r m' (Nat.succ_pos i) rfl rfl)
        have later : readArm prev (place + 1) (rowFields (place + 1) rows) (rowBytes rows marks)
            = .error (some (place + 1 + i)) :=
          ih ok.tail fit.tail (fun j r' m'' hj hr hm' => by
            rw [Nat.add_right_comm]
            exact before (j + 1) r' m'' (Nat.succ_lt_succ hj) hr hm') hrow hm
            (by rw [Nat.add_right_comm]; exact failed)
        rw [readArm_cons ok.head fit, show armField prev place r m' = some v from hv, Option.elim_some, later,
          Nat.add_right_comm]
        rfl

end Sys2Proof.Proofs
end

section
/-! SESSION.ARM (05 R82, R83, R85): what its body comes to, the build and its completion: the settled O52. -/
namespace Sys2Proof.Proofs
open Sys2Proof.Machine

/-! ### The codes of a configuration -/

/-- 05 R83: the code of a direction. -/
def directionCode : DirectionChoice → Nat
  | .auto => 0
  | .left => 1
  | .right => 2

/-- 05 R83: the code of an extent. -/
def extentCode : Extent → Nat
  | .partialSweep => 0
  | .fullCircle => 1

/-- 05 R83: the code of a canvas policy. -/
def policyCode : CanvasPolicy → Nat
  | .wait => 0
  | .overwrite => 1

/-- 05 R83: the code of gyro_use. -/
def gyroUseCode (b : Bool) : Nat := if b then 1 else 0

theorem codes_eq (c : SessionConfig) : c.codes = [c.wf, c.hf, c.profileSlot, directionCode c.direction,
    extentCode c.extent, policyCode c.policy, gyroUseCode c.gyroUse, c.overlapPct, c.radius, c.marginPct, c.lockCount,
    c.coastLimit, c.calFrames, c.fastFrames, c.slowFrames, c.stallFrames, c.textureMin, c.matchMeanMax, c.distinctMin,
    c.maxStrips, c.fillY, c.fillC] := rfl

theorem directionCode_le (d : DirectionChoice) : directionCode d ≤ 2 := by cases d <;> decide

theorem extentCode_le (e : Extent) : extentCode e ≤ 1 := by cases e <;> decide

theorem policyCode_le (p : CanvasPolicy) : policyCode p ≤ 1 := by cases p <;> decide

theorem gyroUseCode_le (b : Bool) : gyroUseCode b ≤ 1 := by cases b <;> decide

theorem directionCode_directionOf {n : Nat} (h : n ≤ 2) : directionCode (directionOf n) = n := by
  match n, h with
  | 0, _ | 1, _ | 2, _ => rfl

theorem extentCode_of {n : Nat} (h : n ≤ 1) : extentCode (if n = 1 then .fullCircle else .partialSweep) = n := by
  match n, h with
  | 0, _ | 1, _ => rfl

theorem policyCode_of {n : Nat} (h : n ≤ 1) : policyCode (if n = 1 then .overwrite else .wait) = n := by
  match n, h with
  | 0, _ | 1, _ => rfl

theorem gyroUseCode_of {n : Nat} (h : n ≤ 1) : gyroUseCode (decide (n = 1)) = n := by
  match n, h with
  | 0, _ | 1, _ => rfl

/-- The values of the four coded fields are codes (05 R83). -/
def Coded (vals : List Nat) : Prop :=
  vals.getD 3 0 ≤ 2 ∧ vals.getD 4 0 ≤ 1 ∧ vals.getD 5 0 ≤ 1 ∧ vals.getD 6 0 ≤ 1

/-- 05 R83: a configuration's codes are codes. -/
theorem codes_coded (c : SessionConfig) : Coded c.codes :=
  ⟨directionCode_le _, extentCode_le _, policyCode_le _, gyroUseCode_le _⟩

theorem range_map_getD (l : List Nat) {n : Nat} (len : l.length = n) : (List.range n).map (fun i => l.getD i 0) = l := by
  subst len
  refine List.ext_getElem (by rw [List.length_map, List.length_range]) fun i _ hi => ?_
  rw [List.getElem_map, List.getElem_range, List.getD_eq_getElem _ _ hi]

theorem get_getD (values : List ArmValue) (texture i : Nat) :
    (values.getD i (.value 0)).get texture = (values.map (ArmValue.get texture)).getD i 0 :=
  (List.getD_map values (.value 0) (ArmValue.get texture)).symm

/-- 05 R83: the configuration of 22 values that are codes where the table has codes holds these values. -/
theorem configOf_codes {values : List ArmValue} {p : ProfileFields} (len : values.length = 22)
    (coded : Coded (values.map (ArmValue.get p.textureMin))) :
    (configOf values p).codes = values.map (ArmValue.get p.textureMin) := by
  obtain ⟨direction, extent, policy, gyro⟩ := coded
  rw [← range_map_getD (values.map (ArmValue.get p.textureMin)) ((List.length_map _).trans len), codes_eq]
  dsimp only [configOf]
  simp only [get_getD, directionCode_directionOf direction, extentCode_of extent, policyCode_of policy,
    gyroUseCode_of gyro]
  rfl

theorem slowRule_codes (c : SessionConfig) : c.slowRule.codes = c.codes.set 14 (max c.slowFrames (c.fastFrames + 2)) := rfl

/-! ### The values given -/

theorem armValue_get (texture : Nat) (v : Option Nat) : (armValue v).get texture = v.getD texture := by
  cases v <;> rfl

/-- 05 R83: a refused field whose default and previous value are in range comes to a value in range. -/
theorem armField_le {prev : Option (List Nat)} {place : Nat} {row : ArmRow} {m : FieldMark} {g : Option Nat}
    (refused : row.clamped = false) (profile : place ≠ 16) (default : ∀ d, row.default = some d → d ≤ row.hi)
    (previous : ∀ l, prev = some l → l.getD place 0 ≤ row.hi) (given : armField prev place row m = some g) (texture : Nat) :
    g.getD texture ≤ row.hi := by
  cases m with
  | value v =>
    dsimp only [armField] at given
    rw [refused, if_neg Bool.false_ne_true] at given
    split at given
    case isTrue inRange =>
      obtain ⟨_, high, _⟩ := inRange
      obtain rfl := Option.some.inj given
      exact high
    case isFalse => cases given
  | useDefault =>
    obtain ⟨d, hd, rfl⟩ := Option.map_eq_some_iff.mp given
    exact default d hd
  | usePrevious =>
    obtain ⟨v, hv, rfl⟩ := Option.map_eq_some_iff.mp given
    obtain ⟨l, hl, at_place⟩ := Option.bind_eq_some_iff.mp hv
    have held := previous l hl
    rwa [List.getD_eq_getElem?_getD, at_place] at held
  | useProfile =>
    dsimp only [armField] at given
    rw [if_neg profile] at given
    cases given

/-- 05 R80, R83: the previous configuration's codes are codes. -/
theorem previousCodes_coded {s : State} {l : List Nat} (h : s.previousCodes = some l) : Coded l := by
  unfold State.previousCodes at h
  split at h
  · obtain ⟨c, _, rfl⟩ := Option.map_eq_some_iff.mp h
    exact codes_coded c
  · cases h

section
variable {s : State} {marks : List FieldMark} {given : List (Option Nat)}

/-- 05 R83: what the fields of a body come to are codes where the table has codes. -/
theorem given_coded (marked : marks.length = 22) (all : given.length = 22)
    (agree : ∀ (j : Nat) (row : ArmRow) (m : FieldMark), armTable[j]? = some row → marks[j]? = some m →
      armField s.previousCodes j row m = given[j]?) (texture : Nat) :
    Coded (given.map (fun v => v.getD texture)) := by
  have bounded (j : Nat) (row : ArmRow) (hrow : armTable[j]? = some row) (refused : row.clamped = false) (small : j < 16)
      (default : ∀ d, row.default = some d → d ≤ row.hi)
      (previous : ∀ l, s.previousCodes = some l → l.getD j 0 ≤ row.hi) :
      (given.map (fun v => v.getD texture)).getD j 0 ≤ row.hi := by
    have mark := List.getElem?_eq_getElem (l := marks) (i := j) (by omega)
    have value := List.getElem?_eq_getElem (l := given) (i := j) (by omega)
    rw [List.getD_eq_getElem?_getD, List.getElem?_map, value]
    exact armField_le refused (by omega) default previous ((agree j row _ hrow mark).trans value) texture
  have default {row : ArmRow} {d' : Nat} (h : row.default = some d') (le : d' ≤ row.hi) :
      ∀ d, row.default = some d → d ≤ row.hi := fun d hd => by
    rw [h] at hd
    exact Option.some.inj hd ▸ le
  refine ⟨bounded 3 _ rfl rfl (by decide) (default rfl (by decide)) fun l hl => ?_,
    bounded 4 _ rfl rfl (by decide) (default rfl (by decide)) fun l hl => ?_,
    bounded 5 _ rfl rfl (by decide) (default rfl (by decide)) fun l hl => ?_,
    bounded 6 _ rfl rfl (by decide) (default rfl (by decide)) fun l hl => ?_⟩
  all_goals obtain ⟨direction, extent, policy, gyro⟩ := previousCodes_coded hl
  · exact direction
  · exact extent
  · exact policy
  · exact gyro

end

/-! ### What the body comes to (05 R82) -/

/-- 05 R82 checks 2 to 4 of a configuration read from a body. -/
theorem armOutcome_of_read {s : State} {body : List Byte} {values : List ArmValue} {slot : ShadowSlot}
    (read : readArm s.previousCodes 0 armFields body = .ok values)
    (named : slot = s.psc.shadow.slots.toList.getD ((values.getD 2 (.value 0)).get 0) { valid := false, fields := default }) :
    s.armOutcome body =
      let c := (configOf values slot.fields).slowRule
      (if slot.valid = false then .error (.profileInvalid, some 2)
       else if c.f16 < 8 * c.wf ∨ 256 * c.wf < c.f16 then .error (.badField, some 2)
       else if c.extent = .fullCircle ∧ (c.maxStrips : Int) < ceilDiv (103 * c.uc) 12800 + 1 then .error (.badField, some 4)
       else .ok c) := by
  unfold State.armOutcome
  rw [read]
  dsimp only [profileSlotField, extentField]
  rw [← named]
  generalize (configOf values slot.fields).slowRule = c
  have width : (¬ f16Fits c = true) ↔ (c.f16 < 8 * c.wf ∨ 256 * c.wf < c.f16) := by
    unfold f16Fits
    rw [decide_eq_true_eq]
    omega
  have circle : (¬ circleFits c = true) ↔ (c.extent = .fullCircle ∧ (c.maxStrips : Int) < ceilDiv (103 * c.uc) 12800 + 1) := by
    unfold circleFits
    rw [decide_eq_true_eq, not_or, Int.not_le]
    cases c.extent <;> simp
  simp only [width, circle, Bool.not_eq_true]

theorem armOutcome_of_failed {s : State} {body : List Byte} {place : Option Nat}
    (read : readArm s.previousCodes 0 armFields body = .error place) : s.armOutcome body = .error (.badField, place) := by
  unfold State.armOutcome
  rw [read]

/-! ### The command and the build (05 R82, R85) -/

section
variable {s : State} {tag : Byte} {body : List Byte} {rest : List Request}

theorem exec_sessionArm_of_executes (h : s.Executes 0x10#8 tag body rest) :
    exec .sessionArm s = .next (s.sessionArm body) := execute_of_executes h s.sessionArm

theorem sessionArm_of_other (h : s.Executes 0x10#8 tag body rest) (free : s.swc.arming = none)
    (idle : s.swc.state ≠ .idle) (armed : s.swc.state ≠ .armed) :
    s.sessionArm body = s.answeredOnly rest 0x90#8 tag (.result .wrongState) := by
  unfold State.sessionArm
  rw [free, if_neg (by decide), if_neg (not_or.mpr ⟨idle, armed⟩)]
  exact answer_of_requests h.2 _ (by decide)

theorem sessionArm_of_accepted (free : s.swc.arming = none) (at_rest : s.swc.state = .idle ∨ s.swc.state = .armed)
    {c : SessionConfig} (ok : s.armOutcome body = .ok c) :
    s.sessionArm body = { s with swc.arming := some c, igu.columnMap := none } := by
  unfold State.sessionArm
  rw [free, if_neg (by decide), if_pos at_rest, ok]

theorem sessionArm_of_refused (h : s.Executes 0x10#8 tag body rest) (free : s.swc.arming = none)
    (at_rest : s.swc.state = .idle ∨ s.swc.state = .armed) {e : ResultCode × Option Nat}
    (failed : s.armOutcome body = .error e) :
    s.sessionArm body = s.answeredOnly rest 0x90#8 tag (.refusedField e.1 e.2) := by
  unfold State.sessionArm
  rw [free, if_neg (by decide), if_pos at_rest, failed]
  exact answer_of_requests h.2 _ (by decide)

theorem exec_columnMapBuilt_of_executes (h : s.Executes 0x10#8 tag body rest) {c : SessionConfig}
    (arming : s.swc.arming = some c) (at_rest : s.swc.state = .idle ∨ s.swc.state = .armed) :
    exec .columnMapBuilt s = .next (s.armed c) := by
  have run : exec .columnMapBuilt s = .next s.columnMapBuilt := execute_of_executes h (fun _ => s.columnMapBuilt)
  rw [run, State.columnMapBuilt, arming]
  dsimp only
  rw [if_pos at_rest]

end

/-- 05 R85 steps 1 to 7: the record once the map is built, before ARMED is entered. -/
def mapBuilt (s : State) (c : SessionConfig) : State :=
  { s with
    igu.columnMap := some (buildMap c)
    swc.keys := []
    swc.pendingTunables := none
    swc.decided := none
    swc.config := some c
    swc.id := nextId s.swc.id
    swc.arming := none }

theorem armed_eq (s : State) (c : SessionConfig) :
    s.armed c = ((mapBuilt s c).enterState .armed).answer (.armed ((mapBuilt s c).enterState .armed).swc.id c) := by
  rw [enterState_swc]
  rfl

/-- Settles O52: the body is read back field by field up to the first that fails, the fields read are the configuration's codes, and the build that completes enters ARMED and answers. -/
theorem armSteps : Obligations.ArmSteps := by
  refine ⟨fun s tag body rest h free => ⟨fun idle armed => ?_, fun c at_rest ok => ?_, fun e at_rest failed => ?_⟩,
    fun s tag body rest c h arming at_rest => ?_, fun s => ⟨fun idle => if_pos idle, fun other => if_neg other⟩,
    fun s marks i row m marked fit before hrow hm failed => ?_,
    fun s marks given vals slot marked all fit agree named values => ?_⟩
  · rw [exec_sessionArm_of_executes h, sessionArm_of_other h free idle armed]
  · rw [exec_sessionArm_of_executes h, sessionArm_of_accepted free at_rest ok]
  · rw [exec_sessionArm_of_executes h, sessionArm_of_refused h free at_rest failed]
  · obtain ⟨requests, _, replies⟩ := (enterState_base (mapBuilt s c) .armed).link
    have noticed : s.Noticed _ _ := .of_lku (enterState_noticed (mapBuilt s c) .armed) rfl
    have igu := enterState_igu (mapBuilt s c) .armed
    have swc := enterState_swc (mapBuilt s c) .armed
    have answered := armed_eq s c
    rw [answer_of_requests (requests.trans h.2) _ (rt := 0x90#8) (by decide)] at answered
    refine ⟨_, (exec_columnMapBuilt_of_executes h arming at_rest).trans (congrArg _ answered), ?_⟩
    generalize (mapBuilt s c).enterState .armed = t at noticed requests replies igu swc
    simp only [answeredOnly_blocks, answeredOnly_lku, Lku.answered, igu, swc, replies, true_and]
    exact ⟨rfl, rfl, rfl, rfl, rfl, rfl, rfl, noticed.kept (answeredOnly_notices t rest _ tag _)⟩
  · have read := readArm_of_failed (place := 0) (prev := s.previousCodes) armTable_ok fit
      (fun j r m' hj hr hm' => by rw [Nat.zero_add]; exact before j r m' hj hr hm') hrow hm (by rwa [Nat.zero_add])
    rw [Nat.zero_add, ← armFields_eq, ← armBytes_eq] at read
    exact armOutcome_of_failed read
  · have read := readArm_of_given (place := 0) (prev := s.previousCodes) (given := given) armTable_ok fit marked all
      (fun j r m' hr hm' => by rw [Nat.zero_add]; exact agree j r m' hr hm')
    rw [← armFields_eq, ← armBytes_eq] at read
    have texts : (given.map armValue).map (ArmValue.get slot.fields.textureMin) = vals := by
      rw [values, List.map_map]
      exact List.map_congr_left fun v _ => armValue_get _ v
    have slots : ((given.map armValue).getD 2 (.value 0)).get 0 = (given.getD 2 (some 0)).getD 0 := by
      rw [show ArmValue.value 0 = armValue (some 0) from rfl, List.getD_map, armValue_get]
    have codes := configOf_codes (values := given.map armValue) (p := slot.fields) ((List.length_map _).trans all)
      (by rw [texts, values]; exact given_coded marked all agree _)
    refine ⟨(configOf (given.map armValue) slot.fields).slowRule, ?_, rfl, rfl, rfl,
      armOutcome_of_read read (by rw [slots]; exact named)⟩
    rw [slowRule_codes, codes, texts, ← texts, ← get_getD, ← get_getD]
    rfl

end Sys2Proof.Proofs
end

section
/-! The work of FINISHING (05 R100): the model's check is the statement's, and no command leaves FINISHING with its work done. -/
namespace Sys2Proof.Proofs
open Sys2Proof.Machine

/-! ### The check (05 R100) -/

/-- 05 R100: the model's check of the work of FINISHING. -/
theorem workDone_iff (s : State) : s.workDone = true ↔ s.FinishingDone := by
  unfold State.workDone State.FinishingDone
  simp only [Bool.and_eq_true, Bool.or_eq_true, Option.isNone_iff_eq_none, List.isEmpty_iff, Option.isSome_iff_ne_none,
    and_assoc]

theorem finishingHasWork_iff (s : State) : s.FinishingHasWork ↔ (s.swc.state = .finishing → s.workDone = false) := by
  unfold State.FinishingHasWork
  rw [← workDone_iff, Bool.not_eq_true]

theorem checkDone_of_hasWork {s : State} (h : s.FinishingHasWork) : s.checkDone = s := by
  unfold State.checkDone
  rw [if_neg]
  rintro ⟨finishing, done⟩
  exact h finishing ((workDone_iff s).mp done)

/-- 05 R100: with work left in FINISHING, and in every other state, nothing but a grant follows. -/
theorem settle_of_hasWork {s : State} (h : s.FinishingHasWork) : s.settle = { s with grant := s.settle.grant } := by
  have same : s.settle = s.arbitrate := congrArg State.arbitrate (checkDone_of_hasWork h)
  rw [same, ← arbitrate_eq]

theorem checkDone_of_done {s : State} (finishing : s.swc.state = .finishing) (done : s.FinishingDone) :
    s.checkDone = (if s.swc.keys.isEmpty && s.tailCalled then s.dropLast else s).enterState .done :=
  if_pos ⟨finishing, (workDone_iff s).mpr done⟩

/-- 05 R100: what settles is not in FINISHING without work. -/
theorem settle_hasWork (s : State) : s.settle.FinishingHasWork := by
  by_cases h : s.FinishingHasWork
  · rw [settle_of_hasWork h]
    exact h
  · unfold State.FinishingHasWork at h
    rw [Classical.not_imp, not_not] at h
    obtain ⟨finishing, done⟩ := h
    have state : s.settle.swc.state = .done := by
      show s.checkDone.swc.state = .done
      rw [checkDone_of_done finishing done, enterState_swc]
    intro again
    rw [state] at again
    cases again

/-! ### Kept by a step -/

/-- From `s` to `t` FINISHING keeps lasting only as long as its work. -/
def HasWorkKept (s t : State) : Prop := s.FinishingHasWork → t.FinishingHasWork

theorem HasWorkKept.refl (s : State) : HasWorkKept s s := id

theorem HasWorkKept.trans {s t u : State} (h : HasWorkKept s t) (k : HasWorkKept t u) : HasWorkKept s u := k ∘ h

theorem HasWorkKept.settled (s u : State) : HasWorkKept s u.settle := fun _ => settle_hasWork u

/-- A state other than FINISHING has no work to wait for. -/
theorem HasWorkKept.of_state {s t : State} {a : SessionState} (h : t.swc.state = a) (other : a ≠ .finishing) :
    HasWorkKept s t := fun _ finishing => absurd (h.symm.trans finishing) other

/-- A frame in tracking is work left. -/
theorem HasWorkKept.of_op {s t : State} {op : TrackOp} (h : t.tku.op = some op) : HasWorkKept s t := by
  rintro _ _ ⟨tracked, _⟩
  rw [h] at tracked
  cases tracked

/-- The work of FINISHING is the same in both states. -/
def SameWork (s t : State) : Prop := t.swc.state = s.swc.state ∧ t.workDone = s.workDone

theorem SameWork.trans {s t u : State} (h : SameWork s t) (k : SameWork t u) : SameWork s u := by
  obtain ⟨state, done⟩ := h
  obtain ⟨state', done'⟩ := k
  exact ⟨state'.trans state, done'.trans done⟩

theorem SameWork.kept {s t : State} (h : SameWork s t) : HasWorkKept s t := by
  obtain ⟨state, done⟩ := h
  unfold HasWorkKept
  rw [finishingHasWork_iff, finishingHasWork_iff, state, done]
  exact id

/-- The blocks that hold the work of FINISHING. -/
def workBlocks : List Block := [.igu, .tku, .smu, .swc, .blu, .cvm]

theorem SameWork.of_frame {l : List Block} {s t : State} (f : SameOutside l s t) (h : ∀ b ∈ workBlocks, b ∉ l) :
    SameWork s t := by
  have igu := f.igu (h .igu (by decide))
  have tku := f.tku (h .tku (by decide))
  have smu := f.smu (h .smu (by decide))
  have swc := f.swc (h .swc (by decide))
  have blu := f.blu (h .blu (by decide))
  have cvm := f.cvm (h .cvm (by decide))
  unfold SameWork State.workDone
  rw [igu, tku, smu, swc, blu, cvm]
  exact ⟨rfl, rfl⟩

theorem answer_sameWork (s : State) (b : ReplyBody) : SameWork s (s.answer b) := .of_frame (answer_frame s b) (by decide)

theorem HasWorkKept.answered {s t : State} (h : HasWorkKept s t) (b : ReplyBody) : HasWorkKept s (t.answer b) :=
  h.trans (answer_sameWork t b).kept

/-! ### The units' commands -/

/-- A row whose condition does not hold changes nothing. -/
theorem leads_same (s : State) : LeadsTo (.next s) (HasWorkKept s) := .next (.refl s)

/-- A row that settles at its end. -/
theorem leads_settled (s u : State) : LeadsTo (.next u.settle) (HasWorkKept s) := .next (.settled s u)

/-- FIP_FV alone is no work. -/
theorem leads_pins (s : State) (p : Pins) : LeadsTo (.next { s with pins := p }) (HasWorkKept s) :=
  .next (SameWork.kept ⟨rfl, rfl⟩)

section
variable (s : State)

theorem execHeaderLine_hasWork (fv : Bool) (beats : List Beat) : LeadsTo (execHeaderLine fv beats s) (HasWorkKept s) := by
  unfold execHeaderLine
  dsimp only
  split
  · exact leads_settled s _
  · exact leads_pins s _

theorem execPictureLine_hasWork (fv : Bool) (tag : Beat) (beats : List Beat) :
    LeadsTo (execPictureLine fv tag beats s) (HasWorkKept s) := by
  unfold execPictureLine
  dsimp only
  split
  · exact leads_pins s _
  · split
    · exact leads_pins s _
    · split <;> exact leads_settled s _

theorem execFrameEnd_hasWork : LeadsTo (execFrameEnd s) (HasWorkKept s) := by
  unfold execFrameEnd
  dsimp only
  split
  · exact leads_pins s _
  · split
    · exact leads_settled s _
    · split
      · exact leads_settled s _
      · exact leads_pins s _

/-- 05 R99: behind a pending closure the report alone is cleared. -/
theorem execInputFault_hasWork : LeadsTo (execInputFault s) (HasWorkKept s) := by
  unfold execInputFault
  split
  · dsimp only
    split
    · exact .next (SameWork.kept ⟨rfl, rfl⟩)
    · exact leads_settled s _
  · exact leads_same s

theorem execPrepareComplete_hasWork : LeadsTo (execPrepareComplete s) (HasWorkKept s) := by
  unfold execPrepareComplete
  split
  · exact leads_same s
  · split
    · exact leads_same s
    · dsimp only
      split <;> exact leads_settled s _

theorem execTrackStart_hasWork : LeadsTo (execTrackStart s) (HasWorkKept s) := by
  unfold execTrackStart
  split
  · exact leads_settled s _
  · exact leads_same s

theorem execSearchComplete_hasWork : LeadsTo (execSearchComplete s) (HasWorkKept s) := by
  unfold execSearchComplete
  split
  · exact leads_same s
  · split
    · dsimp only
      split <;> exact leads_settled s _
    · exact leads_same s

/-- 03 R37: between two losses of one search the frame stays in tracking. -/
theorem execPatchLost_hasWork : LeadsTo (execPatchLost s) (HasWorkKept s) := by
  unfold execPatchLost
  split
  · exact leads_same s
  · split
    · exact leads_settled s _
    · dsimp only
      split
      · exact leads_settled s _
      · exact .next (.of_op rfl)
    · exact leads_same s

theorem execTrackLocked_hasWork : LeadsTo (execTrackLocked s) (HasWorkKept s) := by
  unfold execTrackLocked
  split
  · exact leads_same s
  · split
    · exact leads_settled s _
    · exact leads_same s

theorem execTrackLost_hasWork : LeadsTo (execTrackLost s) (HasWorkKept s) := by
  unfold execTrackLost
  split
  · exact leads_same s
  · split
    · exact leads_settled s _
    · exact leads_same s

theorem execSelectionComplete_hasWork : LeadsTo (execSelectionComplete s) (HasWorkKept s) := by
  unfold execSelectionComplete
  split
  · exact leads_same s
  · split
    · exact leads_same s
    · split
      · dsimp only
        split <;> exact leads_settled s _
      · exact leads_same s

theorem execCalibrationDecision_hasWork : LeadsTo (execCalibrationDecision s) (HasWorkKept s) := by
  unfold execCalibrationDecision
  split
  · exact leads_same s
  · split
    · split <;> exact leads_settled s _
    · exact leads_settled s _
    · exact leads_same s

theorem execCalibrationTimeout_hasWork : LeadsTo (execCalibrationTimeout s) (HasWorkKept s) := by
  unfold execCalibrationTimeout
  split
  · exact leads_same s
  · split
    · split <;> exact leads_settled s _
    · exact leads_settled s _
    · exact leads_same s

theorem endDue_hasWork (due : TrackStage) (cause : EndCause) : LeadsTo (.next (s.endDue due cause)) (HasWorkKept s) := by
  unfold State.endDue
  split
  · exact leads_same s
  · split
    · exact leads_settled s _
    · exact leads_same s

theorem execPaceChange_hasWork : LeadsTo (execPaceChange s) (HasWorkKept s) := by
  unfold execPaceChange
  split
  · exact leads_same s
  · split
    · split <;> exact leads_settled s _
    · exact leads_settled s _
    · exact leads_same s

theorem execClosureAccepted_hasWork : LeadsTo (execClosureAccepted s) (HasWorkKept s) := by
  unfold execClosureAccepted
  split
  · exact leads_same s
  · split
    · split <;> exact leads_settled s _
    · exact leads_settled s _
    · exact leads_same s

theorem execTakeKey_hasWork : LeadsTo (execTakeKey s) (HasWorkKept s) := by
  unfold execTakeKey
  split
  · split
    · split
      · exact leads_settled s _
      · exact leads_same s
    · split
      · exact leads_settled s _
      · exact leads_same s
  · exact leads_same s

theorem execTailKeyDecision_hasWork : LeadsTo (execTailKeyDecision s) (HasWorkKept s) := by
  unfold execTailKeyDecision
  split
  · exact leads_settled s _
  · exact leads_same s

theorem execFinalKeyMark_hasWork : LeadsTo (execFinalKeyMark s) (HasWorkKept s) := by
  unfold execFinalKeyMark
  split
  · exact leads_settled s _
  · exact leads_same s

theorem execFinalCommitEnter_hasWork : LeadsTo (execFinalCommitEnter s) (HasWorkKept s) := by
  unfold execFinalCommitEnter
  split
  · exact leads_settled s _
  · exact leads_same s

theorem execStripOpenRequest_hasWork : LeadsTo (execStripOpenRequest s) (HasWorkKept s) := by
  unfold execStripOpenRequest
  split
  · exact leads_same s
  · split
    · exact leads_settled s _
    · exact leads_same s

theorem execCommitComplete_hasWork : LeadsTo (execCommitComplete s) (HasWorkKept s) := by
  unfold execCommitComplete
  split
  · split
    · exact leads_settled s _
    · exact leads_same s
  · exact leads_same s

theorem execSeamJobDone_hasWork : LeadsTo (execSeamJobDone s) (HasWorkKept s) := by
  unfold execSeamJobDone
  split
  · split
    · dsimp only
      split <;> exact leads_settled s _
    · exact leads_same s
  · exact leads_same s

theorem execClosureJobBegin_hasWork : LeadsTo (execClosureJobBegin s) (HasWorkKept s) := by
  unfold execClosureJobBegin
  split
  · split
    · exact leads_settled s _
    · exact leads_same s
  · exact leads_same s

theorem execCommitEnter_hasWork : LeadsTo (execCommitEnter s) (HasWorkKept s) := by
  unfold execCommitEnter
  split
  · split
    · exact leads_settled s _
    · exact leads_same s
  · exact leads_same s

/-! #### Buffer memory -/

theorem SameWork.eccNoted {s t : State} (h : SameWork s t) (failed : Bool) :
    SameWork s (if failed then t.noteEccError else t) := by
  split
  · exact h.trans ⟨rfl, rfl⟩
  · exact h

/-- 10 R166: a read noted ends no pass and no operation. -/
theorem noteRead_sameWork (who : Requester) (w : Nat) (failed : Bool) : SameWork s (s.noteRead who w failed) := by
  cases who with
  | igu =>
    refine ⟨rfl, ?_⟩
    unfold State.noteRead State.workDone
    dsimp only
    rw [Option.isNone_map]
  | tku =>
    refine ⟨rfl, ?_⟩
    unfold State.noteRead State.workDone
    dsimp only
    rw [Option.isNone_map]
  | smu | blu | opu => exact ⟨rfl, rfl⟩

/-- 10 R167: a write noted ends no pass. -/
theorem noteWrite_sameWork (who : Requester) (w : WordWrite) (failed : Bool) : SameWork s (s.noteWrite who w failed) := by
  cases who with
  | igu =>
    unfold State.noteWrite
    dsimp only
    split
    · exact ⟨rfl, rfl⟩
    · refine ⟨rfl, ?_⟩
      unfold State.workDone
      dsimp only
      rw [Option.isNone_map]
  | blu =>
    unfold State.noteWrite
    dsimp only
    split
    · split <;> exact ⟨rfl, rfl⟩
    · exact ⟨rfl, rfl⟩
  | tku | smu | opu => exact ⟨rfl, rfl⟩

theorem completeAccess_sameWork (g : Grant) (now : EccOutcome) : SameWork s (s.completeAccess g now) := by
  unfold State.completeAccess
  split
  · have stored : SameWork s { s with ecc := markAfterRead s.ecc g.access.addr (readOutcome (markOf s.ecc g.access.addr) now) } :=
      ⟨rfl, rfl⟩
    dsimp only
    by_cases live : g.live = true
    · rw [if_pos live]
      exact (stored.eccNoted _).trans (noteRead_sameWork _ _ _ _)
    · rw [if_neg live]
      exact stored.eccNoted _
  · next w _ =>
    have stored (failed : Bool) : SameWork s (s.storeWord w failed) := ⟨rfl, rfl⟩
    dsimp only
    by_cases live : g.live = true
    · rw [if_pos live]
      exact ((stored _).eccNoted _).trans (noteWrite_sameWork _ _ _ _)
    · rw [if_neg live]
      exact (stored _).eccNoted _

theorem execMemoryAccessComplete_hasWork (now : EccOutcome) :
    LeadsTo (execMemoryAccessComplete now s) (HasWorkKept s) := by
  unfold execMemoryAccessComplete
  split
  · exact .next (SameWork.kept ⟨rfl, rfl⟩)
  · split
    · exact .next ((completeAccess_sameWork s _ now).trans ⟨rfl, rfl⟩).kept
    · exact fun _ e => nomatch e

/-! #### Output -/

theorem execTransferStart_hasWork : LeadsTo (execTransferStart s) (HasWorkKept s) := by
  unfold execTransferStart
  split
  · exact leads_same s
  · split
    · exact leads_settled s _
    · exact leads_same s

theorem execSopLineStart_hasWork : LeadsTo (execSopLineStart s) (HasWorkKept s) := by
  unfold execSopLineStart
  split
  · split
    · exact leads_same s
    · split
      · exact leads_settled s _
      · exact leads_same s
  · exact leads_same s

theorem execTransferComplete_hasWork : LeadsTo (execTransferComplete s) (HasWorkKept s) := by
  unfold execTransferComplete
  split
  · split
    · exact leads_same s
    · split
      · split <;> exact leads_settled s _
      · exact leads_same s
  · exact leads_same s

/-! ### The requests of the session and the output halt -/

theorem sessionArm_hasWork (body : List Byte) : HasWorkKept s (s.sessionArm body) := by
  rcases sessionArm_cases s body with e | ⟨b, e⟩ | ⟨c, e⟩ <;> rw [e]
  · exact .refl s
  · exact (answer_sameWork s b).kept
  · exact SameWork.kept ⟨rfl, rfl⟩

theorem columnMapBuilt_hasWork : HasWorkKept s s.columnMapBuilt := by
  rcases columnMapBuilt_cases s with e | ⟨c, e⟩ <;> rw [e]
  · exact .refl s
  · exact .of_state (congrArg Swc.state (armed_swc s c)) (fun e => nomatch e)

theorem sessionStart_hasWork : HasWorkKept s s.sessionStart := by
  have started : HasWorkKept s s.start :=
    .of_state (congrArg Swc.state (start_swc s)) (by cases s.cfg.direction <;> exact fun e => nomatch e)
  unfold State.sessionStart
  split
  · exact started.answered _
  · exact (answer_sameWork s _).kept

theorem sessionTune_hasWork (body : List Byte) : HasWorkKept s (s.sessionTune body) := by
  obtain ⟨config, pending, b, e⟩ := sessionTune_cases s body
  rw [e]
  refine HasWorkKept.answered ?_ b
  exact SameWork.kept ⟨rfl, rfl⟩

theorem sessionStop_hasWork : HasWorkKept s s.sessionStop := by
  unfold State.sessionStop
  split
  · exact .settled s _
  · exact (answer_sameWork s _).kept

theorem gyroPut_hasWork (body : List Byte) : HasWorkKept s (s.gyroPut body) := by
  obtain ⟨g, b, e⟩ := gyroPut_cases s body
  rw [e]
  refine HasWorkKept.answered ?_ b
  exact SameWork.kept ⟨rfl, rfl⟩

theorem outputResume_hasWork (action : Option ResumeAction) : HasWorkKept s (s.outputResume action) := by
  rcases outputResume_cases s action with ⟨b, e⟩ | ⟨u, _, e⟩ <;> rw [e]
  · exact (answer_sameWork s b).kept
  · exact .settled s u

/-- 09 R159: a row of OUTPUT.RESUME leaves the action of the other row to it. -/
theorem resumeRow_hasWork (otherRow : Prop) [Decidable otherRow] (action : Option ResumeAction) :
    HasWorkKept s (if otherRow then s else s.outputResume action) := by
  split
  · exact .refl s
  · exact outputResume_hasWork s action

/-- The SESSION notice that ends an abort or a release keeps the session where it is. -/
theorem notifySession_sameWork (before after : SessionState) : SameWork s (s.notifySession before after) :=
  .of_frame (notifySession_frame s before after) (by decide)

theorem sessionAbort_hasWork : HasWorkKept s s.sessionAbort := by
  have idle : HasWorkKept s s.abandon := .of_state (a := .idle) rfl (by decide)
  unfold State.sessionAbort
  split
  · exact (answer_sameWork s _).kept
  · exact (idle.trans (notifySession_sameWork _ _ _).kept).answered _

theorem sessionRelease_hasWork : HasWorkKept s s.sessionRelease := by
  have idle : HasWorkKept s s.release := .of_state (a := .idle) rfl (by decide)
  unfold State.sessionRelease
  split
  · exact (idle.trans (notifySession_sameWork _ _ _).kept).answered _
  · exact (answer_sameWork s _).kept

theorem engineReset_hasWork :
    HasWorkKept s (if s.psc.burn.isSome then s.answerCode .busy else s.engineClears.answerCode .ok) := by
  have idle : HasWorkKept s s.engineClears := .of_state (a := .idle) rfl (by decide)
  split
  · exact (answer_sameWork s _).kept
  · exact idle.answered _

theorem execPinReset_hasWork : LeadsTo (execPinReset s) (HasWorkKept s) :=
  .next (.of_state (a := .idle) (congrArg Swc.state ((load_frame _).swc (by decide))) (by decide))

theorem execute_hasWork {type : Byte} {handle : List Byte → State} (h : ∀ body, HasWorkKept s (handle body)) :
    LeadsTo (s.execute type handle) (HasWorkKept s) := execute_leadsTo (.refl s) h

theorem executeFieldless_hasWork {t : State} {type : Byte} (h : HasWorkKept s t) :
    LeadsTo (s.execute type (fun body => s.withoutFields body t)) (HasWorkKept s) := by
  refine execute_hasWork s (fun body => ?_)
  rcases withoutFields_cases s t body with e | ⟨b, e⟩ <;> rw [e]
  · exact h
  · exact (answer_sameWork s b).kept

end

/-! ### Every command -/

/-- A unit's command settles at its end or changes nothing that FINISHING waits for. -/
theorem exec_hasWork_of_unit {c : Instr} (h : unitCommand c = true) (s : State) : LeadsTo (exec c s) (HasWorkKept s) := by
  cases c with
  | headerLine fv beats => exact execHeaderLine_hasWork s fv beats
  | pictureLine fv tag beats => exact execPictureLine_hasWork s fv tag beats
  | frameEnd => exact execFrameEnd_hasWork s
  | frameAbort => exact leads_settled s _
  | inputFault => exact execInputFault_hasWork s
  | prepareComplete => exact execPrepareComplete_hasWork s
  | trackStart => exact execTrackStart_hasWork s
  | searchComplete => exact execSearchComplete_hasWork s
  | patchLost => exact execPatchLost_hasWork s
  | trackLocked => exact execTrackLocked_hasWork s
  | trackLost => exact execTrackLost_hasWork s
  | selectionComplete => exact execSelectionComplete_hasWork s
  | calibrationDecision => exact execCalibrationDecision_hasWork s
  | calibrationTimeout => exact execCalibrationTimeout_hasWork s
  | noSweep | stalled | keyLimit => exact endDue_hasWork s _ _
  | paceChange => exact execPaceChange_hasWork s
  | closureAccepted => exact execClosureAccepted_hasWork s
  | takeKey => exact execTakeKey_hasWork s
  | tailKeyDecision => exact execTailKeyDecision_hasWork s
  | finalKeyMark => exact execFinalKeyMark_hasWork s
  | seamJobDone => exact execSeamJobDone_hasWork s
  | closureJobBegin => exact execClosureJobBegin_hasWork s
  | commitEnter => exact execCommitEnter_hasWork s
  | finalCommitEnter => exact execFinalCommitEnter_hasWork s
  | stripOpenRequest => exact execStripOpenRequest_hasWork s
  | commitComplete => exact execCommitComplete_hasWork s
  | memoryAccessComplete now => exact execMemoryAccessComplete_hasWork s now
  | transferStart => exact execTransferStart_hasWork s
  | sopLineStart => exact execSopLineStart_hasWork s
  | sopRdyChange level => exact leads_pins s _
  | transferComplete => exact execTransferComplete_hasWork s
  | cutTrailerDone =>
    exact (exec_outside (c := .cutTrailerDone) (by decide) (by decide) s).mono (fun _ f =>
      (SameWork.of_frame f (by decide)).kept)
  | _ => simp [unitCommand] at h

/-- 05 R100: FINISHING never outlasts its work, whatever command is executed. -/
theorem exec_hasWork (c : Instr) (s : State) : LeadsTo (exec c s) (HasWorkKept s) := by
  by_cases unit : unitCommand c = true
  · exact exec_hasWork_of_unit unit s
  by_cases outside : ∀ b ∈ workBlocks, b ∉ touches c
  · exact (exec_outside (outside _ (by decide)) (outside _ (by decide)) s).mono (fun _ f => (SameWork.of_frame f outside).kept)
  cases c with
  | sessionArm => exact execute_hasWork s (sessionArm_hasWork s)
  | columnMapBuilt => exact execute_hasWork s (fun _ => columnMapBuilt_hasWork s)
  | sessionStart => exact executeFieldless_hasWork s (sessionStart_hasWork s)
  | sessionTune => exact execute_hasWork s (sessionTune_hasWork s)
  | sessionStop => exact executeFieldless_hasWork s (sessionStop_hasWork s)
  | sessionAbort => exact executeFieldless_hasWork s (sessionAbort_hasWork s)
  | sessionRelease => exact executeFieldless_hasWork s (sessionRelease_hasWork s)
  | gyroPut => exact execute_hasWork s (gyroPut_hasWork s)
  | outputResumeRetry => exact execute_hasWork s (fun body => resumeRow_hasWork s (resumeBody body = some .skip) _)
  | outputResumeSkip => exact execute_hasWork s (fun body => resumeRow_hasWork s (resumeBody body = some .retry) _)
  | engineReset => exact executeFieldless_hasWork s (engineReset_hasWork s)
  | pinReset => exact execPinReset_hasWork s
  | _ => simp [unitCommand, touches, workBlocks] at unit outside

theorem step_hasWork {s t : State} (h : step s = .next t) : HasWorkKept s t := by
  unfold step at h
  split at h
  · cases h
    exact (SameWork.of_frame (tick_frame s) (by decide)).kept
  · next c rest _ =>
    have taken : SameWork s { s with pending := rest } := ⟨rfl, rfl⟩
    exact taken.kept.trans (exec_hasWork c _ t h)

end Sys2Proof.Proofs
end

section
/-! The end of FINISHING (05 R100, 07 R126, 08 R145, 09 R157): the mark of the last key and the entry into DONE: the settled O34. -/
namespace Sys2Proof.Proofs
open Sys2Proof.Machine

/-! ### The entry into DONE -/

/-- 04 R76, 05 R100: the state that enters DONE: a session without a key makes its tail-key decision on the way. -/
def beforeDone (s : State) : State := if s.swc.keys.isEmpty && s.tailCalled then s.dropLast else s

theorem settle_of_done {s : State} (finishing : s.swc.state = .finishing) (done : s.FinishingDone) :
    s.settle = ((beforeDone s).enterState .done).arbitrate := congrArg State.arbitrate (checkDone_of_done finishing done)

theorem beforeDone_lku (s : State) : (beforeDone s).lku = s.lku := by
  unfold beforeDone
  split
  · exact (dropLast_frame s).lku (by decide)
  · rfl

/-- Of SWC's record only the tail-key decision is made. -/
theorem beforeDone_swc (s : State) : ∃ tail, (beforeDone s).swc = { s.swc with tail := tail } := by
  unfold beforeDone
  split
  · exact ⟨.made, dropLast_swc s⟩
  · exact ⟨s.swc.tail, rfl⟩

/-- The next stored index is no part of what a slot given up takes with it. -/
theorem beforeDone_nextStored (s : State) : (beforeDone s).igu.nextStored = s.igu.nextStored := by
  unfold beforeDone
  split
  · obtain ⟨igu, _⟩ := freeSlots_vacates s (s.slotsIn .last)
    show (s.freeSlots (s.slotsIn .last)).igu.nextStored = _
    rw [igu]
  · rfl

section
variable {s : State}

theorem settle_state_of_done (finishing : s.swc.state = .finishing) (done : s.FinishingDone) :
    s.settle.swc.state = .done := by
  rw [settle_of_done finishing done]
  exact congrArg Swc.state (enterState_swc _ _)

/-- 05 R89: the SESSION notice of the end of FINISHING. -/
def doneNotice (s : State) : NoticeBody :=
  .session s.swc.id .finishing .done s.swc.endCause s.swc.decided s.swc.keys.length s.igu.nextStored

/-- 05 R89: the entry into DONE queues its notice, in a state that enters it as in one that comes to it. -/
theorem beforeDone_notice (finishing : s.swc.state = .finishing) : NoticeBody.session (beforeDone s).swc.id
    (beforeDone s).swc.state .done
    (if (.done : SessionState) = .finishing ∨ (.done : SessionState) = .done then (beforeDone s).swc.endCause else none)
    (beforeDone s).swc.decided (beforeDone s).swc.keys.length (beforeDone s).igu.nextStored = doneNotice s := by
  obtain ⟨tail, swc⟩ := beforeDone_swc s
  rw [if_pos (Or.inr rfl), beforeDone_nextStored, swc, doneNotice, finishing]

theorem settle_doneNoticed (finishing : s.swc.state = .finishing) (done : s.FinishingDone) :
    s.Noticed s.settle (doneNotice s) := by
  have entered := enterState_noticed (beforeDone s) .done
  rw [beforeDone_notice finishing] at entered
  rw [settle_of_done finishing done]
  exact (entered.of_lku (beforeDone_lku s).symm).kept (.of_lku rfl)

/-- 05 R89: behind another notice of the same command it is the second one. -/
theorem settle_doneNoticedNext {v : State} {b : NoticeBody} (first : s.lku = (v.notify b).lku)
    (finishing : s.swc.state = .finishing) (done : s.FinishingDone) : v.NoticedNext s.settle (doneNotice s) := by
  have entered := enterState_noticedNext ((beforeDone_lku s).trans first) .done
  rw [beforeDone_notice finishing] at entered
  rw [settle_of_done finishing done]
  exact entered.kept (.of_lku rfl)

end

/-! ### The mark of the last key (07 R126) -/

/-- 05 R100 item 5: the final key is fixed in the very states the statement names. -/
theorem finalKeyFixed_of {s : State} (finishing : s.swc.state = .finishing) (tracked : s.tku.op = none)
    (keyed : s.swc.keys ≠ []) (unmarked : s.blu.mark = none) (decided : s.swc.tail = .made ∨ s.tailCalled = false) :
    s.finalKeyFixed = true := by
  unfold State.finalKeyFixed
  rw [tracked]
  refine decide_eq_true ⟨finishing, rfl, keyed, unmarked, fun called => decided.elim id (fun not => ?_)⟩
  rw [not] at called
  cases called

theorem finalKeyFixed_of_noKey {s : State} (none : s.swc.keys = []) : s.finalKeyFixed = false := by
  unfold State.finalKeyFixed
  rw [none]
  exact decide_eq_false (fun ⟨_, _, keyed, _⟩ => keyed rfl)

/-! ### The last strip's transfer (09 R157) -/

theorem endWait_of_noWait {s : State} (h : s.cvm.wait = none) (j : Nat) : s.endWait j = s := by
  unfold State.endWait
  rw [h]

/-- 09 R157 steps 1 to 4: the strip has left with its notice and OPU is IDLE. -/
def stripSent (s : State) (x : Transfer) (r : Strip) : State :=
  (((((s.presentTrailer (s.trailerRecord x) 0).removeStrip r.index).countSent).notifyStrip x.session r .sent
    s.opu.number).clearTransfer).setOpuState .idle

theorem stripSent_cvm (s : State) (x : Transfer) (r : Strip) :
    (stripSent s x r).cvm = (((s.presentTrailer (s.trailerRecord x) 0).removeStrip r.index).countSent).cvm :=
  (notifyStrip_frame _ x.session r .sent s.opu.number).cvm (by decide)

/-- 09 R157: with no strip waiting for the slot that is all. -/
theorem transferClean_of_noWait {s : State} (x : Transfer) (r : Strip) (h : s.cvm.wait = none) :
    s.transferClean x r = stripSent s x r :=
  endWait_of_noWait ((congrArg Cvm.wait (stripSent_cvm s x r)).trans h) r.index

section
variable {s : State} (x : Transfer) {r : Strip}

theorem transferClean_cvm (h : s.cvm.wait = none) :
    (s.transferClean x r).cvm = (((s.presentTrailer (s.trailerRecord x) 0).removeStrip r.index).countSent).cvm := by
  rw [transferClean_of_noWait x r h, stripSent_cvm]

theorem transferClean_blu (h : s.cvm.wait = none) : (s.transferClean x r).blu = s.blu := by
  rw [transferClean_of_noWait x r h]
  exact (notifyStrip_frame _ x.session r .sent s.opu.number).blu (by decide)

theorem transferClean_lku (h : s.cvm.wait = none) : (s.transferClean x r).lku
    = (s.notify (.strip x.session r.index .sent r.holes r.damaged s.opu.number)).lku := by
  rw [transferClean_of_noWait x r h]
  exact notify_lku_congr (by rfl) _

/-- 05 R100, 09 R157 step 5: with the last strip sent nothing is left to do but what the other units had left. -/
theorem transferClean_done (waitless : s.cvm.wait = none) (last : s.cvm.outQueue = [r.index]) (tracked : s.tku.op = none)
    (prepared : s.igu.prep = none) (marked : s.blu.mark ≠ none) (committed : s.cvm.lastCommit = true)
    (seams : s.smu.queue = []) (commits : s.blu.queue = []) : (s.transferClean x r).FinishingDone := by
  have frame := transferClean_frame s x r
  unfold State.FinishingDone
  rw [frame.tku (by decide), frame.igu (by decide), frame.smu (by decide), transferClean_blu x waitless,
    transferClean_cvm x waitless]
  refine ⟨tracked, prepared, ?_, .inr ⟨marked, committed, seams, commits⟩⟩
  show s.cvm.outQueue.filter _ = []
  rw [last, List.filter_cons_of_neg (by simp), List.filter_nil]

theorem exec_transferComplete_of_clean (sending : s.opu.state = .sending) {x : Transfer} (transfer : s.opu.xfer = some x)
    (strip : s.stripAt x.strip = some r) (ready : s.pins.sopRdy = true) (lines : s.stripLines ≤ x.line)
    (clean : x.errorSeen = false) : exec .transferComplete s = .next (s.transferClean x r).settle := by
  show execTransferComplete s = _
  unfold execTransferComplete
  rw [sending, transfer]
  dsimp only
  rw [strip]
  dsimp only
  rw [if_pos ⟨ready, lines⟩, clean]
  rfl

end

/-- Settles O34: the model's check is R100's, what settles is never left in FINISHING without work, and each command settles or leaves that work as it is. -/
theorem finalKeyMarked : Obligations.FinalKeyMarked := by
  refine ⟨fun s finishing tracked keyed unmarked decided => ?_, fun s none => ?_, fun s finishing done => ?_,
    fun s h => settle_of_hasWork h, fun s t h run => step_hasWork run h,
    fun s x r sending transfer strip ready lines clean waitless last finishing tracked prepared marked committed seams
      commits => ?_⟩
  · refine ⟨_, if_pos (finalKeyFixed_of finishing tracked keyed unmarked decided), ?_, settle_keys _⟩
    rw [settle_blu]
  · exact if_neg (by rw [finalKeyFixed_of_noKey none]; decide)
  · exact ⟨settle_state_of_done finishing done, settle_keys s, settle_endCause s, settle_igu,
      settle_doneNoticed finishing done⟩
  · rw [← stripAt_index strip] at last
    have done := transferClean_done (r := r) x waitless last tracked prepared marked committed seams commits
    have swc : (s.transferClean x r).swc = s.swc := (transferClean_frame s x r).swc (by decide)
    have igu : (s.transferClean x r).igu = s.igu := (transferClean_frame s x r).igu (by decide)
    have ending : (s.transferClean x r).swc.state = .finishing := by rw [swc, finishing]
    have noticed := settle_doneNoticedNext (transferClean_lku x waitless) ending done
    rw [doneNotice, swc, igu] at noticed
    have ⟨_, _, queue, _⟩ := done
    exact ⟨_, exec_transferComplete_of_clean sending transfer strip ready lines clean, settle_state_of_done ending done,
      (congrArg Cvm.outQueue (settle_cvm _)).trans queue, noticed⟩

end Sys2Proof.Proofs
end

section
/-! OUTPUT.RESUME (09 R159): its refusals, the end of a halt, RETRY, and SKIP with the end of a wait (08 R141): the settled O55. -/
namespace Sys2Proof.Proofs
open Sys2Proof.Machine

/-! ### The command -/

theorem resumeBody_retry : resumeBody [0#8] = some .retry := rfl

theorem resumeBody_skip : resumeBody [1#8] = some .skip := rfl

/-- 09 R159: an action is 0 or 1. -/
theorem resumeBody_of_unknown {a : Byte} (h : 2 ≤ a.toNat) : resumeBody [a] = none := by
  have notRetry : a ≠ 0#8 := fun e => by rw [e] at h; exact absurd h (by decide)
  have notSkip : a ≠ 1#8 := fun e => by rw [e] at h; exact absurd h (by decide)
  show (if a = 0#8 then some ResumeAction.retry else if a = 1#8 then some .skip else none) = none
  rw [if_neg notRetry, if_neg notSkip]

section
variable {s : State} {tag : Byte} {body : List Byte} {rest : List Request}

/-- The row of RETRY executes every request but a SKIP. -/
theorem exec_resumeRetry_of_executes (h : s.Executes 0x21#8 tag body rest) {action : Option ResumeAction}
    (read : resumeBody body = action) (mine : action ≠ some .skip) :
    exec .outputResumeRetry s = .next (s.outputResume action) := by
  have run : exec .outputResumeRetry s
      = .next (if resumeBody body = some .skip then s else s.outputResume (resumeBody body)) :=
    execute_of_executes h (fun body => if resumeBody body = some .skip then s else s.outputResume (resumeBody body))
  rw [run, read, if_neg mine]

/-- The row of SKIP executes every request but a RETRY. -/
theorem exec_resumeSkip_of_executes (h : s.Executes 0x21#8 tag body rest) {action : Option ResumeAction}
    (read : resumeBody body = action) (mine : action ≠ some .retry) :
    exec .outputResumeSkip s = .next (s.outputResume action) := by
  have run : exec .outputResumeSkip s
      = .next (if resumeBody body = some .retry then s else s.outputResume (resumeBody body)) :=
    execute_of_executes h (fun body => if resumeBody body = some .retry then s else s.outputResume (resumeBody body))
  rw [run, read, if_neg mine]

theorem outputResume_of_unknown (h : s.Executes 0x21#8 tag body rest) :
    s.outputResume none = s.answeredOnly rest 0xA1#8 tag (.result .badField) :=
  answer_of_requests h.2 _ (by decide)

theorem outputResume_of_running (h : s.Executes 0x21#8 tag body rest) (running : s.opu.state ≠ .halted) (a : ResumeAction) :
    s.outputResume (some a) = s.answeredOnly rest 0xA1#8 tag (.result .wrongState) := by
  unfold State.outputResume
  dsimp only
  rw [if_neg running]
  exact answer_of_requests h.2 _ (by decide)

/-- The answer OK of a state that still holds the request at the head of its queue. -/
theorem answerOk_of_requests (u : State) (h : s.Executes 0x21#8 tag body rest) (same : u.lku.requests = s.lku.requests) :
    u.answerCode .ok = u.answeredOnly rest 0xA1#8 tag (.result .ok) :=
  answer_of_requests (same.trans h.2) _ (by decide)

end

/-! ### The halted strip -/

section
variable {s : State}

theorem haltedStrip_none (clear : ∀ j q r, s.cvm.outQueue = j :: q → s.stripAt j = some r → r.error = false) :
    s.haltedStrip = none := by
  unfold State.haltedStrip
  split
  · rfl
  · next j q queue =>
    refine Option.filter_eq_none_iff.mpr fun r strip => ?_
    rw [clear j q r queue strip]
    decide

theorem haltedStrip_some {j : Nat} {q : List Nat} {r : Strip} (queue : s.cvm.outQueue = j :: q)
    (strip : s.stripAt j = some r) (marked : r.error = true) : s.haltedStrip = some r := by
  unfold State.haltedStrip
  rw [queue]
  dsimp only
  rw [strip]
  exact Option.filter_some_pos marked

theorem outputResume_of_none (halted : s.opu.state = .halted) (none : s.haltedStrip = none) (a : ResumeAction) :
    s.outputResume (some a) = (s.endHalt.answerCode .ok).settle := by
  unfold State.outputResume
  dsimp only
  rw [if_pos halted, none]

theorem outputResume_retry {r : Strip} (halted : s.opu.state = .halted) (head : s.haltedStrip = some r) :
    s.outputResume (some .retry) = ((s.retryStrip r).answerCode .ok).settle := by
  unfold State.outputResume
  dsimp only
  rw [if_pos halted, head]

theorem outputResume_skip {r : Strip} (halted : s.opu.state = .halted) (head : s.haltedStrip = some r) :
    s.outputResume (some .skip) = ((s.skipStrip r).answerCode .ok).settle := by
  unfold State.outputResume
  dsimp only
  rw [if_pos halted, head]

end

/-! ### The end of a halt (09 R159) -/

/-- A command's end raises and clears no condition. -/
theorem settle_conds (s : State) : s.settle.lku.conds = s.lku.conds := by
  by_cases h : s.FinishingHasWork
  · rw [settle_of_hasWork h]
  · unfold State.FinishingHasWork at h
    rw [Classical.not_imp, not_not] at h
    obtain ⟨finishing, done⟩ := h
    rw [settle_of_done finishing done]
    show ((beforeDone s).enterState .done).lku.conds = _
    unfold State.enterState State.notifySession
    obtain ⟨_, _, _, conds, _⟩ := notify_requests { beforeDone s with swc.state := .done } (.session (beforeDone s).swc.id
      (beforeDone s).swc.state .done _ (beforeDone s).swc.decided (beforeDone s).swc.keys.length (beforeDone s).igu.nextStored)
    exact conds.trans (congrArg Lku.conds (beforeDone_lku s))

/-- 09 R159: the halt ended with the answer OK, and CVM's record as given. -/
def resumed (s : State) (cvm : Cvm) (rest : List Request) (tag : Byte) : State :=
  { s with
    opu.state := .idle
    cvm := cvm
    lku := { (s.lku.answered rest 0xA1#8 tag (.result .ok)) with conds.outputHalted := false } }

/-- 09 R159: while the strips that wait for the port stay, the end of a halt is all that happens. -/
theorem haltEnded_settle {s : State} {cvm : Cvm} (queue : cvm.outQueue = s.cvm.outQueue)
    (commit : cvm.lastCommit = s.cvm.lastCommit) (rest : List Request) (tag : Byte) :
    s.HaltEnded (resumed s cvm rest tag).settle rest tag := by
  obtain ⟨requests, _, replies⟩ := (settle_kept (resumed s cvm rest tag)).link
  refine ⟨settle_opu _, settle_blu _, settle_conds _, requests, replies, fun work => ?_⟩
  have same : SameWork s (resumed s cvm rest tag) := by
    refine ⟨rfl, ?_⟩
    unfold State.workDone resumed
    dsimp only
    rw [queue, commit]
  rw [settle_of_hasWork (same.kept work)]
  rfl

/-! ### The end of a wait (08 R141) -/

section
variable {s : State} {j : Nat} {w : CanvasWait}

theorem endWait_of_other (h : ∀ w, s.cvm.wait = some w → w.occupant ≠ j) : s.endWait j = s := by
  unfold State.endWait
  split
  · rfl
  · next w wait => exact if_neg (h w wait)

/-- 08 R141: the wait is over: the strip waited for is created and BLU writes its part. -/
def waitOver (s : State) (w : CanvasWait) : State := ({ (s.createStrip w.strip) with cvm.wait := none } : State).openPart true

theorem endWait_of_wait (wait : s.cvm.wait = some w) (occupied : w.occupant = j) :
    s.endWait j = (waitOver s w).notifyCanvas w true := by
  unfold State.endWait
  rw [wait]
  exact if_pos occupied

theorem endWait_lku (s : State) (j : Nat) : (s.endWait j).lku = s.lku ∨ ∃ b, (s.endWait j).lku = (s.notify b).lku := by
  unfold State.endWait
  split
  · exact .inl rfl
  · split
    · exact .inr ⟨_, notify_lku_congr (by rfl) _⟩
    · exact .inl rfl

theorem endWait_conds (s : State) (j : Nat) : (s.endWait j).lku.conds = s.lku.conds := by
  rcases endWait_lku s j with e | ⟨b, e⟩ <;> rw [e]
  obtain ⟨_, _, _, conds, _⟩ := notify_requests s b
  exact conds

theorem endWait_notices (s : State) (j : Nat) : s.NoticesKept (s.endWait j) := by
  rcases endWait_lku s j with e | ⟨b, e⟩
  · exact .of_lku e
  · exact (notify_notices s b).trans (.of_lku e)

/-- The end of a wait changes of CVM's record the table and the wait. -/
theorem endWait_cvm (s : State) (j : Nat) :
    ∃ strips wait, (s.endWait j).cvm = { s.cvm with strips := strips, wait := wait } := by
  unfold State.endWait
  split
  · exact ⟨s.cvm.strips, s.cvm.wait, rfl⟩
  · next w _ =>
    split
    · exact ⟨_, none, (notifyCanvas_frame (waitOver s w) w true).cvm (by decide)⟩
    · exact ⟨s.cvm.strips, s.cvm.wait, rfl⟩

theorem stripAt_of_cvm {s t : State} (h : t.cvm = s.cvm) (k : Nat) : t.stripAt k = s.stripAt k := by
  unfold State.stripAt
  rw [h]

theorem stripAt_notifyCanvas (s : State) (w : CanvasWait) (k : Nat) : (s.notifyCanvas w true).stripAt k = s.stripAt k :=
  stripAt_of_cvm ((notifyCanvas_frame s w true).cvm (by decide)) k

theorem find_insertStrip_other {r : Strip} {k : Nat} (h : r.index ≠ k) (l : List Strip) :
    (insertStrip r l).find? (fun x => x.index == k) = l.find? (fun x => x.index == k) := by
  have passed (xs : List Strip) : (r :: xs).find? (fun x => x.index == k) = xs.find? (fun x => x.index == k) :=
    List.find?_cons_of_neg (by rwa [beq_iff_eq])
  induction l with
  | nil => exact passed []
  | cons x xs ih =>
    unfold insertStrip
    split
    · exact passed (x :: xs)
    · rw [List.find?_cons, List.find?_cons, ih]

theorem freshStrip_index (s : State) (j : Nat) : (s.freshStrip j).index = j := by
  unfold State.freshStrip
  split <;> rfl

theorem freshStrip_opened (s : State) (j : Nat) : (s.freshStrip j).state = .opened ∧ (s.freshStrip j).slot = s.slotOfStrip j := by
  unfold State.freshStrip
  split <;> exact ⟨rfl, rfl⟩

/-- A created strip changes the lookup of no other. -/
theorem stripAt_createStrip_other {k : Nat} (h : j ≠ k) : (s.createStrip j).stripAt k = s.stripAt k :=
  find_insertStrip_other (by rwa [freshStrip_index]) s.cvm.strips

/-- The end of a wait puts no strip but the one waited for into the table. -/
theorem stripAt_endWait_other {k : Nat} (h : ∀ w, s.cvm.wait = some w → w.strip ≠ k) : (s.endWait j).stripAt k = s.stripAt k := by
  unfold State.endWait
  split
  · rfl
  · next w wait =>
    split
    · exact (stripAt_notifyCanvas (waitOver s w) w k).trans (stripAt_createStrip_other (h w wait))
    · rfl

end

/-! ### SKIP (09 R159) -/

/-- 09 R159: the strip skipped has left and the halt has ended. -/
def skipped (s : State) (r : Strip) : State :=
  (((((s.removeStrip r.index).countSkipped).notifyStrip s.swc.id r .skipped s.opu.number).clearTransfer).endHalt)

theorem skipStrip_eq (s : State) (r : Strip) : s.skipStrip r = (skipped s r).endWait r.index := rfl

section
variable (s : State) (r : Strip)

/-- 09 R159: the notice of a strip skipped. -/
def skipNotice : NoticeBody := .strip s.swc.id r.index .skipped r.holes r.damaged s.opu.number

theorem skipped_cvm : (skipped s r).cvm = ((s.removeStrip r.index).countSkipped).cvm :=
  (notifyStrip_frame _ s.swc.id r .skipped s.opu.number).cvm (by decide)

theorem skipped_frame : SameOutside [.cvm, .opu, .lku] s (skipped s r) :=
  (((((removeStrip_frame s r.index).comp (countSkipped_frame _) (n := [.cvm]) (by decide)).comp
    (notifyStrip_frame _ s.swc.id r .skipped s.opu.number) (n := [.cvm, .lku]) (by decide)).comp
    (clearTransfer_frame _) (n := [.cvm, .opu, .lku]) (by decide)).comp (endHalt_frame _) (by decide))

theorem skipped_opu : (skipped s r).opu = { state := .idle, number := 0, xfer := none } := rfl

/-- The notice and the end of the halt meet in no part of the link's record. -/
theorem skipped_lku : (skipped s r).lku = ((s.setOutputHalted false).notify (skipNotice s r)).lku := by
  show ({ (((s.removeStrip r.index).countSkipped).notify (skipNotice s r)).lku with conds.outputHalted := false } : Lku) = _
  rw [notify_lku_congr (s := s) (by rfl)]
  rcases notify_cases s (skipNotice s r) with ⟨room, e⟩ | ⟨full, e⟩
  · have room' : (s.setOutputHalted false).lku.notices.length < Config.noticePlaces := room
    rw [e, State.notify, if_pos room']
    rfl
  · have full' : ¬ (s.setOutputHalted false).lku.notices.length < Config.noticePlaces := Nat.not_lt.mpr full
    rw [e, State.notify, if_neg full']
    rfl

theorem skipped_link : (skipped s r).lku.requests = s.lku.requests ∧ (skipped s r).lku.replies = s.lku.replies
    ∧ (skipped s r).lku.conds = { s.lku.conds with outputHalted := false } := by
  obtain ⟨requests, _, replies, conds, _⟩ := notify_requests (s.setOutputHalted false) (skipNotice s r)
  rw [skipped_lku]
  exact ⟨requests, replies, conds⟩

theorem skipped_noticed : s.Noticed (skipped s r) (skipNotice s r) :=
  (notify_noticed (s.setOutputHalted false) (skipNotice s r)).kept (.of_lku (skipped_lku s r))

end

/-- A skipped strip is in the table no more. -/
theorem stripAt_skipped (s : State) (r : Strip) (k : Nat) :
    (skipped s r).stripAt k = if k = r.index then none else s.stripAt k := by
  rw [← stripAt_removeStrip s r.index k]
  exact stripAt_of_cvm (skipped_cvm s r) k

section
variable (s : State) (r : Strip)

theorem skipped_wait : (skipped s r).cvm.wait = s.cvm.wait := by
  rw [skipped_cvm]
  rfl

theorem skipStrip_opu : (s.skipStrip r).opu = { state := .idle, number := 0, xfer := none } :=
  ((endWait_frame (skipped s r) r.index).opu (by decide)).trans (skipped_opu s r)

theorem skipStrip_link : (s.skipStrip r).lku.requests = s.lku.requests ∧ (s.skipStrip r).lku.replies = s.lku.replies
    ∧ (s.skipStrip r).lku.conds = { s.lku.conds with outputHalted := false } := by
  obtain ⟨requests, replies, conds⟩ := skipped_link s r
  obtain ⟨sameRequests, _, sameReplies⟩ := (endWait_kept (skipped s r) r.index).link
  exact ⟨sameRequests.trans requests, sameReplies.trans replies, (endWait_conds (skipped s r) r.index).trans conds⟩

theorem skipStrip_noticed : s.Noticed (s.skipStrip r) (skipNotice s r) :=
  (skipped_noticed s r).kept (endWait_notices (skipped s r) r.index)

/-- 08 R137, 09 R159: what a skipped strip leaves in CVM's record besides the table and the wait. -/
theorem skipStrip_cvm : ∃ strips wait,
    (s.skipStrip r).cvm = { ((s.removeStrip r.index).countSkipped).cvm with strips := strips, wait := wait } := by
  rw [← skipped_cvm]
  exact endWait_cvm (skipped s r) r.index

end

section
variable {s : State} {r : Strip}

theorem stripAt_skipStrip_self (apart : ∀ w, s.cvm.wait = some w → w.strip ≠ r.index) :
    (s.skipStrip r).stripAt r.index = none := by
  have gone : (skipped s r).stripAt r.index = none := (stripAt_skipped s r r.index).trans (if_pos rfl)
  rw [← skipped_wait s r] at apart
  exact (stripAt_endWait_other apart).trans gone

theorem skipStrip_outQueue (s : State) (r : Strip) : r.index ∉ (s.skipStrip r).cvm.outQueue := by
  obtain ⟨strips, wait, cvm⟩ := skipStrip_cvm s r
  rw [cvm]
  exact outQueue_removeStrip s r.index

theorem skipStrip_counts (strip : s.stripAt r.index = some r) :
    (s.skipStrip r).cvm.skipped = min 65535 (s.cvm.skipped + 1)
      ∧ (s.skipStrip r).cvm.damaged = (if r.damaged = true then min 65535 (s.cvm.damaged + 1) else s.cvm.damaged) := by
  obtain ⟨strips, wait, cvm⟩ := skipStrip_cvm s r
  rw [cvm]
  refine ⟨rfl, ?_⟩
  unfold State.countSkipped State.removeStrip
  dsimp only
  rw [strip]
  rfl

/-- 09 R159: the answer OK of the SKIP that is being executed. -/
theorem exec_skip_of_executes {tag : Byte} {rest : List Request} (h : s.Executes 0x21#8 tag [1#8] rest)
    (halted : s.opu.state = .halted) (head : s.haltedStrip = some r) :
    exec .outputResumeSkip s = .next ((s.skipStrip r).answeredOnly rest 0xA1#8 tag (.result .ok)).settle := by
  obtain ⟨requests, _⟩ := skipStrip_link s r
  rw [exec_resumeSkip_of_executes h resumeBody_skip (by decide), outputResume_skip halted head,
    answerOk_of_requests _ h requests]

/-- 08 R141: a wait on another slot stays, and BLU with it. -/
theorem skipStrip_of_otherWait (other : ∀ w, s.cvm.wait = some w → w.occupant ≠ r.index) :
    (s.skipStrip r).cvm.wait = s.cvm.wait ∧ (s.skipStrip r).blu = s.blu := by
  rw [← skipped_wait s r] at other
  rw [skipStrip_eq, endWait_of_other other]
  exact ⟨skipped_wait s r, (skipped_frame s r).blu (by decide)⟩

end

section
variable {s : State} {r : Strip} {w : CanvasWait}

/-- 08 R141: the wait on the slot of a skipped strip is over. -/
theorem skipStrip_of_wait (wait : s.cvm.wait = some w) (occupied : w.occupant = r.index) :
    s.skipStrip r = (waitOver (skipped s r) w).notifyCanvas w true :=
  endWait_of_wait ((skipped_wait s r).trans wait) occupied

/-- 08 R139, R141: the strip waited for is OPEN in its slot. -/
theorem stripAt_waitOver (absent : (skipped s r).stripAt w.strip = none) : ∃ p,
    ((waitOver (skipped s r) w).notifyCanvas w true).stripAt w.strip = some p ∧ p.state = .opened
      ∧ p.slot = s.slotOfStrip w.strip := by
  have created := stripAt_createStrip absent w.strip
  rw [if_pos rfl] at created
  obtain ⟨opened, slot⟩ := freshStrip_opened (skipped s r) w.strip
  have swc : (skipped s r).swc = s.swc := (skipped_frame s r).swc (by decide)
  refine ⟨_, (stripAt_notifyCanvas (waitOver (skipped s r) w) w w.strip).trans created, opened, slot.trans ?_⟩
  unfold State.slotOfStrip State.cfg
  rw [swc]

theorem waitOver_wait (s : State) (r : Strip) (w : CanvasWait) :
    ((waitOver (skipped s r) w).notifyCanvas w true).cvm.wait = none := by
  rw [(notifyCanvas_frame (waitOver (skipped s r) w) w true).cvm (by decide)]
  rfl

/-- 07 R132: BLU writes the part that lies in the strip opened. -/
theorem waitOver_blu (s : State) (r : Strip) (w : CanvasWait) :
    ((waitOver (skipped s r) w).notifyCanvas w true).blu = (s.openPart true).blu := by
  have blu : (skipped s r).blu = s.blu := (skipped_frame s r).blu (by decide)
  rw [(notifyCanvas_frame (waitOver (skipped s r) w) w true).blu (by decide)]
  unfold waitOver State.openPart State.createStrip
  dsimp only
  rw [blu]

/-- 08 R141: the CANVAS notice of the end is the second of the command. -/
theorem waitOver_noticedNext (s : State) (r : Strip) (w : CanvasWait) :
    (s.setOutputHalted false).NoticedNext ((waitOver (skipped s r) w).notifyCanvas w true)
      (.canvas s.swc.id w.strip w.occupant w.occupantState s.cfg.policy true) := by
  have swc : (waitOver (skipped s r) w).swc = s.swc := (skipped_frame s r).swc (by decide)
  have noticed := notify_noticedNext (t := waitOver (skipped s r) w) (skipped_lku s r)
    (.canvas s.swc.id w.strip w.occupant w.occupantState s.cfg.policy true)
  unfold State.notifyCanvas
  rw [State.cfg, swc]
  exact noticed

end

/-- Settles O55: the refusals are the rows', without a halted strip and with RETRY the end of the halt is all, and SKIP is the strip's leaving, its notice and the end of a wait on its slot. -/
theorem outputResumes : Obligations.OutputResumes := by
  refine ⟨fun s tag rest => ⟨fun h running => ?_, fun h running => ?_, fun a unknown h => ⟨?_, ?_⟩⟩,
    fun s tag rest halted clear => ⟨fun h => ?_, fun h => ?_⟩,
    fun s tag rest j q r halted queue strip marked => ⟨fun h => ?_, fun h apart => ?_⟩⟩
  · rw [exec_resumeRetry_of_executes h resumeBody_retry (by decide), outputResume_of_running h running]
  · rw [exec_resumeSkip_of_executes h resumeBody_skip (by decide), outputResume_of_running h running]
  · rw [exec_resumeRetry_of_executes h (resumeBody_of_unknown unknown) (by decide), outputResume_of_unknown h]
  · rw [exec_resumeSkip_of_executes h (resumeBody_of_unknown unknown) (by decide), outputResume_of_unknown h]
  · refine ⟨(resumed s s.cvm rest tag).settle, ?_, haltEnded_settle rfl rfl rest tag, settle_cvm _⟩
    rw [exec_resumeRetry_of_executes h resumeBody_retry (by decide), outputResume_of_none halted (haltedStrip_none clear),
      answerOk_of_requests s.endHalt h rfl]
    rfl
  · refine ⟨(resumed s s.cvm rest tag).settle, ?_, haltEnded_settle rfl rfl rest tag, settle_cvm _⟩
    rw [exec_resumeSkip_of_executes h resumeBody_skip (by decide), outputResume_of_none halted (haltedStrip_none clear),
      answerOk_of_requests s.endHalt h rfl]
    rfl
  · have index := stripAt_index strip
    have ended := haltEnded_settle (s := s) (cvm := (s.updateStrip j (fun q => { q with error := false })).cvm) rfl rfl
      rest tag
    refine ⟨_, ?_, ?_, settle_cvm _, ended⟩
    · rw [exec_resumeRetry_of_executes h resumeBody_retry (by decide),
        outputResume_retry halted (haltedStrip_some queue strip marked), answerOk_of_requests (s.retryStrip r) h rfl, ← index]
      rfl
    · have changed := stripAt_updateStrip s j j (fun q => { q with error := false }) (fun _ => rfl)
      rw [if_pos rfl, strip] at changed
      exact (stripAt_of_cvm (settle_cvm _) j).trans changed
  · obtain rfl := stripAt_index strip
    have run := exec_skip_of_executes h halted (haltedStrip_some queue strip marked)
    obtain ⟨sameRequests, sameReplies, conds⟩ := skipStrip_link s r
    obtain ⟨skips, damaged⟩ := skipStrip_counts strip
    have swc : (s.skipStrip r).swc = s.swc := (skipStrip_frame s r).swc (by decide)
    have igu : (s.skipStrip r).igu = s.igu := (skipStrip_frame s r).igu (by decide)
    obtain ⟨requests, _, replies⟩ := (settle_kept ((s.skipStrip r).answeredOnly rest 0xA1#8 tag (.result .ok))).link
    have later : (s.skipStrip r).NoticesKept ((s.skipStrip r).answeredOnly rest 0xA1#8 tag (.result .ok)).settle :=
      (answeredOnly_notices _ rest _ tag _).trans (settle_notices _)
    refine ⟨_, run, (stripAt_of_cvm (settle_cvm _) r.index).trans (stripAt_skipStrip_self apart), ?_,
      (congrArg Cvm.skipped (settle_cvm _)).trans skips, (congrArg Cvm.damaged (settle_cvm _)).trans damaged,
      (settle_opu _).trans (skipStrip_opu s r), (settle_conds _).trans conds, requests,
      replies.trans (congrArg (· ++ _) sameReplies), (settle_keys _).trans (congrArg Swc.keys swc), fun elsewhere => ?_,
      (skipStrip_noticed s r).kept later, fun other => ?_, fun w waits occupied absent => ?_⟩
    · rw [settle_cvm]
      exact skipStrip_outQueue s r
    · have state : (s.skipStrip r).swc.state ≠ .finishing := by rwa [swc]
      rw [settle_eq (s := (s.skipStrip r).answeredOnly rest 0xA1#8 tag (.result .ok)) state]
      exact ⟨swc, igu⟩
    · rw [settle_cvm, settle_blu]
      exact skipStrip_of_otherWait other
    · have gone : (skipped s r).stripAt w.strip = none := by rw [stripAt_skipped, absent, ite_self]
      have ended := skipStrip_of_wait waits occupied
      obtain ⟨second, _⟩ := ((waitOver_noticedNext s r w).kept (.of_lku (congrArg State.lku ended))).kept later
      have blu : ((s.skipStrip r).answeredOnly rest 0xA1#8 tag (.result .ok)).blu = (s.openPart true).blu :=
        (congrArg State.blu ended).trans (waitOver_blu s r w)
      rw [stripAt_of_cvm (settle_cvm _), settle_cvm, settle_blu, blu]
      refine ⟨(congrArg (fun u : State => u.cvm.wait) ended).trans (waitOver_wait s r w), rfl, ?_, fun run hrun => ?_, second⟩
      · show ∃ p, (s.skipStrip r).stripAt w.strip = some p ∧ _
        rw [ended]
        exact stripAt_waitOver gone
      · exact ⟨_, congrArg (Option.map _) hrun, rfl⟩

end Sys2Proof.Proofs
end

section
/-! ENGINE.RESET and pin reset (05 R104, 09 R160, 10 R169, 11 R183, 12 R184, R185, R189): the settled O60. -/
namespace Sys2Proof.Proofs
open Sys2Proof.Machine

/-! ### ENGINE.RESET (05 R104) -/

/-- What ENGINE.RESET leaves, block by block. -/
theorem engineClears_eq (s : State) : s.engineClears = { s with
    pins := s.cutTransfer.pins
    opu := { s.cutTransfer.opu with state := s.cutTransfer.opu.state.afterEngineReset }
    igu := Igu.reset, tku := Tku.reset, swc := { Swc.reset with id := s.swc.id }
    smu := Smu.reset, blu := Blu.reset, cvm := Cvm.reset
    grant := s.grant.map (fun g => { g with live := false })
    lku := { s.lku with
      notices := []
      conds := { outputHalted := false, profileBad := s.lku.conds.profileBad, burnFailed := false }
      tx := s.emptyNotices.lku.tx } } := by
  unfold State.engineClears
  rw [abandon_eq]
  rfl

/-- 11 R183: a notice being shifted out is shifted out to its end and lost. -/
theorem emptyNotices_tx_of_notice {s : State} {bytes : List Byte} (h : s.lku.tx = .notice bytes) :
    s.emptyNotices.lku.tx = .lost bytes := by
  unfold State.emptyNotices
  rw [h]

theorem emptyNotices_tx_of_other {s : State} (h : ∀ bytes, s.lku.tx ≠ .notice bytes) : s.emptyNotices.lku.tx = s.lku.tx := by
  unfold State.emptyNotices
  cases tx : s.lku.tx with
  | notice bytes => exact absurd tx (h bytes)
  | undriven | nothing | reply _ | lost _ => rfl

section
variable {s : State} {tag : Byte} {rest : List Request}

theorem exec_engineReset_of_executes (h : s.Executes 0x3F#8 tag [] rest) : exec .engineReset s
    = .next (if s.psc.burn.isSome then s.answerCode .busy else s.engineClears.answerCode .ok) :=
  execute_of_executes h (fun body => s.withoutFields body
    (if s.psc.burn.isSome then s.answerCode .busy else s.engineClears.answerCode .ok))

theorem exec_engineReset_of_burn (h : s.Executes 0x3F#8 tag [] rest) (burn : s.psc.burn.isSome = true) :
    exec .engineReset s = .next (s.answeredOnly rest 0xBF#8 tag (.result .busy)) := by
  rw [exec_engineReset_of_executes h, if_pos burn]
  exact congrArg Host.Outcome.next (answer_of_requests h.2 _ (by decide))

theorem exec_engineReset_of_noBurn (h : s.Executes 0x3F#8 tag [] rest) (burn : s.psc.burn = none) :
    exec .engineReset s = .next (s.engineClears.answeredOnly rest 0xBF#8 tag (.result .ok)) := by
  have requests : s.engineClears.lku.requests = _ := (congrArg (·.lku.requests) (engineClears_eq s)).trans h.2
  rw [exec_engineReset_of_executes h, burn, if_neg (by decide)]
  exact congrArg Host.Outcome.next (answer_of_requests requests _ (by decide))

end

section
variable {s : State}

/-- 09 R160: a transfer is cut off. -/
theorem engineClears_of_sending (h : s.opu.state = .sending) : s.engineClears.opu.state = .cutting
    ∧ s.engineClears.opu.number = s.opu.number
    ∧ s.engineClears.pins = { s.pins with sopLv := false, sopLine := s.pins.sopLine.take s.pins.sopBeat }
    ∧ ∀ x r, s.opu.xfer = some x → s.stripAt x.strip = some r →
      s.engineClears.opu.xfer = some { x with holes := r.holes, flags := s.stripFlags r, rd := {}, trailer := false } := by
  obtain ⟨state, number, pins, xfer⟩ := cutTransfer_of_sending h
  rw [engineClears_eq]
  dsimp only
  rw [state]
  refine ⟨rfl, number, pins, fun x r hx hr => ?_⟩
  rw [xfer, hx, Option.map_some, refreshed_of_strip hr]

theorem engineClears_of_cutting (h : s.opu.state = .cutting) :
    s.engineClears.opu = s.opu ∧ s.engineClears.pins = s.pins := by
  have kept : s.opu.state.afterEngineReset = s.opu.state := by rw [h]; rfl
  rw [engineClears_eq, cutTransfer_of_cutting h]
  dsimp only
  rw [kept]
  exact ⟨rfl, rfl⟩

/-- 09 R160: a halt ends, and the transfer record is emptied. -/
theorem engineClears_of_rest (h : s.opu.state = .idle ∨ s.opu.state = .halted) :
    s.engineClears.opu = { state := .idle, number := 0, xfer := none } ∧ s.engineClears.pins = s.pins := by
  have ended : s.opu.state.afterEngineReset = .idle := by rcases h with h | h <;> rw [h] <;> rfl
  rw [engineClears_eq, cutTransfer_of_rest h]
  unfold State.clearTransfer
  dsimp only
  rw [ended]
  exact ⟨rfl, rfl⟩

end

/-! ### The load (12 R185) -/

theorem load_psc (s : State) : s.load.psc = { s.psc with shadow := loadShadow s.psc } := by
  unfold State.load
  dsimp only
  split <;> rfl

theorem load_lku (s : State) :
    s.load.lku = { s.lku with conds.profileBad := badStore s.psc || s.lku.conds.profileBad } := by
  unfold State.load
  dsimp only
  split
  · next bad =>
    rw [bad]
    rfl
  · next good =>
    rw [Bool.not_eq_true] at good
    rw [good]
    rfl

section
variable (p : Psc)

theorem loadShadow_slot (i : Fin 4) : (loadShadow p).slots[i]
    = { valid := decide (p.profiles[i].crc = profileCrc p.profiles[i].fields), fields := p.profiles[i].fields } :=
  Vector.getElem_map _ i.isLt

theorem loadShadow_of_good (h : p.protection.crc = protectionCrc p.protection.fields) :
    (loadShadow p).mask = p.protection.fields.mask ∧ (loadShadow p).locked = p.protection.fields.locked :=
  ⟨if_pos h, if_pos h⟩

theorem loadShadow_of_bad (h : p.protection.crc ≠ protectionCrc p.protection.fields) :
    (loadShadow p).mask = 0xF#4 ∧ (loadShadow p).locked = false := ⟨if_neg h, if_neg h⟩

/-- 12 R185: a bad record is a slot's or the protection record. -/
theorem badStore_iff : badStore p = true ↔ (∃ i : Fin 4, p.profiles[i].crc ≠ profileCrc p.profiles[i].fields)
    ∨ p.protection.crc ≠ protectionCrc p.protection.fields := by
  unfold badStore
  rw [Bool.or_eq_true, decide_eq_true_eq, List.any_eq_true]
  refine or_congr_left ⟨fun ⟨r, mem, bad⟩ => ?_, fun ⟨i, bad⟩ => ?_⟩
  · obtain ⟨i, inside, rfl⟩ := Vector.mem_iff_getElem.mp (Vector.mem_toList_iff.mp mem)
    exact ⟨⟨i, inside⟩, of_decide_eq_true bad⟩
  · exact ⟨p.profiles[i], Vector.mem_toList_iff.mpr (Vector.getElem_mem i.isLt), decide_eq_true bad⟩

end

/-! ### The store at pin reset (12 R184, R189) -/

theorem not_ne_self (x : BitVec 16) : ~~~x ≠ x := fun e => by
  have sum := congrArg BitVec.toNat e
  rw [BitVec.toNat_not] at sum
  omega

/-- 12 R189: the CRC that a cut burn leaves is bad. -/
theorem badCrc_ne (good crc : BitVec 16) : badCrc good crc ≠ good := by
  unfold badCrc
  split
  · next e =>
    rw [e]
    exact not_ne_self good
  · next ne => exact ne

theorem cutProfile_bad (n : Nat) : (cutProfile n).crc ≠ profileCrc (cutProfile n).fields := badCrc_ne _ _

theorem cutProtection_bad (n : Nat) : (cutProtection n).crc ≠ protectionCrc (cutProtection n).fields := badCrc_ne _ _

section
variable {p : Psc} (n : Nat)

theorem pinReset_of_noBurn (h : p.burn = none) :
    (p.pinReset n).profiles = p.profiles ∧ (p.pinReset n).protection = p.protection := by
  unfold Psc.pinReset
  rw [h]
  exact ⟨rfl, rfl⟩

theorem pinReset_of_profile {i : Fin 4} {f : ProfileFields} (h : p.burn = some (.profile i f)) :
    (p.pinReset n).protection = p.protection ∧ (p.pinReset n).profiles = p.profiles.set i (cutProfile n) := by
  unfold Psc.pinReset
  rw [h]
  exact ⟨rfl, rfl⟩

theorem pinReset_of_protection {f : ProtectionFields} (h : p.burn = some (.protect f) ∨ p.burn = some (.lock f)) :
    (p.pinReset n).profiles = p.profiles ∧ (p.pinReset n).protection = cutProtection n := by
  unfold Psc.pinReset
  rcases h with h | h <;> rw [h] <;> exact ⟨rfl, rfl⟩

end

/-! ### Buffer memory at pin reset (10 R169) -/

theorem cutWrite_of_noWrite {s : State} (h : ∀ g, s.grant = some g → g.access.write = none) : s.cutWrite = s := by
  unfold State.cutWrite
  split
  · rfl
  · next g grant => rw [h g grant]

/-- The bytes of the word of a write that is cut off. -/
def cutBytes (n : Nat) : List (Option Byte) := (List.range 8).map (fun k : Nat => some (Config.cutWriteByte (n + k)))

theorem cutBytes_length (n : Nat) : (cutBytes n).length = 8 := by
  unfold cutBytes
  rw [List.length_map, List.length_range]

theorem cutWrite_of_write {s : State} {g : Grant} {w : WordWrite} (grant : s.grant = some g)
    (write : g.access.write = some w) : s.cutWrite = { s with
      mem := writeBytes s.mem w.addr (cutBytes s.free)
      ecc := if Config.cutWriteBad s.free then setMark s.ecc w.addr .uncorrectable else clearMark s.ecc w.addr
      free := s.free + 8 } := by
  unfold State.cutWrite
  rw [grant]
  dsimp only
  rw [write]
  rfl

/-- A write cut off changes memory, its marks and the free choices only. -/
theorem cutWrite_eq (s : State) :
    s.cutWrite = { s with mem := s.cutWrite.mem, ecc := s.cutWrite.ecc, free := s.cutWrite.free } := by
  unfold State.cutWrite
  split
  · rfl
  · split <;> rfl

/-- Clearing the mark of a word changes the lookup of no other. -/
theorem markOf_clearMark_other {w u : Nat} (h : u ≠ w) (l : List (Nat × WordMark)) : markOf (clearMark l w) u = markOf l u := by
  induction l with
  | nil => rfl
  | cons e rest ih =>
    obtain ⟨k, v⟩ := e
    unfold clearMark
    split
    · next same =>
      subst same
      exact (if_neg (Ne.symm h)).symm
    · show (if k = u then some v else markOf (clearMark rest w) u) = if k = u then some v else markOf rest u
      rw [ih]

section
variable {s : State} {g : Grant} {w : WordWrite} (grant : s.grant = some g) (write : g.access.write = some w)
include grant write

theorem markOf_cutWrite_other {a : Nat} (h : a ≠ w.addr) : markOf s.cutWrite.ecc a = markOf s.ecc a := by
  rw [cutWrite_of_write grant write]
  dsimp only
  split
  · rw [markOf_setMark, if_neg h]
  · exact markOf_clearMark_other h s.ecc

theorem readByte_cutWrite_outside (canonical : s.MemoryCanonical) {a : Nat} (h : a < w.addr ∨ w.addr + 8 ≤ a) :
    readByte s.cutWrite.mem a = readByte s.mem a := by
  obtain ⟨wf, _⟩ := canonical
  rw [cutWrite_of_write grant write]
  exact readByte_writeBytes_outside _ _ _ _ wf (by rwa [cutBytes_length])

end

/-! ### Pin reset -/

/-- Pin reset up to the load of the shadow on release. -/
def pinCleared (s : State) : State :=
  { State.reset with
    pins := { Pins.reset with fipFv := s.cutWrite.pins.fipFv, sopRdy := s.cutWrite.pins.sopRdy
                              lkSelected := s.cutWrite.pins.lkSelected }
    mem := s.cutWrite.mem
    ecc := s.cutWrite.ecc
    psc := s.cutWrite.psc.pinReset s.cutWrite.free
    free := s.cutWrite.free + 2
    pending := s.cutWrite.pending }

theorem exec_pinReset (s : State) : exec .pinReset s = .next (pinCleared s).load := rfl

/-- 12 R184: the store controller before the load. -/
theorem pinCleared_psc (s : State) : (pinCleared s).psc = s.psc.pinReset s.cutWrite.free := by
  unfold pinCleared
  dsimp only
  rw [cutWrite_eq]

theorem pinCleared_pins (s : State) : (pinCleared s).pins = { Pins.reset with
    fipFv := s.pins.fipFv, sopRdy := s.pins.sopRdy, lkSelected := s.pins.lkSelected } := by
  unfold pinCleared
  rw [cutWrite_eq]

/-- 12 R185: PROFILE_BAD after pin reset is as the load gives it. -/
theorem pinReset_profileBad (s : State) : (pinCleared s).load.lku.conds.profileBad = badStore (s.psc.pinReset s.cutWrite.free) := by
  rw [load_lku, pinCleared_psc]
  exact Bool.or_false _

theorem pinReset_lku (s : State) :
    (pinCleared s).load.lku = { Lku.reset with conds.profileBad := (pinCleared s).load.lku.conds.profileBad } := by
  rw [load_lku]
  rfl

/-- Settles O60: ENGINE.RESET's clears block by block, and pin reset as the reset values, the cut write, the store with the target of its burn bad, and the load. -/
theorem resetsLeave : Obligations.ResetsLeave := by
  refine ⟨fun s tag rest h => ⟨fun burn => exec_engineReset_of_burn h burn, fun burn => ?_⟩, fun s => ?_⟩
  · refine ⟨_, exec_engineReset_of_noBurn h burn, ?_, fun bytes notice => ?_, fun other => ?_, engineClears_of_sending,
      engineClears_of_cutting, engineClears_of_rest⟩
    · rw [engineClears_eq]
      rfl
    · rw [engineClears_eq]
      exact emptyNotices_tx_of_notice notice
    · rw [engineClears_eq]
      exact emptyNotices_tx_of_other other
  · have frame := load_frame (pinCleared s)
    have psc : (pinCleared s).load.psc = { s.psc.pinReset s.cutWrite.free with
        shadow := loadShadow (s.psc.pinReset s.cutWrite.free) } := by rw [load_psc, pinCleared_psc]
    have bad := pinReset_profileBad s
    have lku := pinReset_lku s
    have mem : (pinCleared s).load.mem = s.cutWrite.mem := frame.mem (by decide)
    have ecc : (pinCleared s).load.ecc = s.cutWrite.ecc := frame.ecc (by decide)
    refine ⟨_, exec_pinReset s, frame.igu (by decide), frame.tku (by decide), frame.swc (by decide), frame.smu (by decide),
      frame.blu (by decide), frame.cvm (by decide), frame.opu (by decide), frame.grant (by decide), lku, by rw [lku]; rfl,
      by rw [lku]; rfl, by rw [lku]; rfl, (frame.pins (by decide)).trans (pinCleared_pins s), by rw [psc]; rfl,
      by rw [psc]; rfl, fun burn => ?_, fun i f burn => ?_, fun f burn => ?_, fun i => ?_, fun good => ?_, fun wrong => ?_, ?_,
      fun unwritten => ?_, fun g w grant write => ⟨fun a other => ?_, fun canonical a outside => ?_⟩⟩
    · rw [psc]
      exact pinReset_of_noBurn _ burn
    · obtain ⟨protection, profiles⟩ := pinReset_of_profile s.cutWrite.free burn
      rw [psc]
      dsimp only
      rw [profiles]
      refine ⟨protection, ?_, fun j other => Vector.getElem_set_ne i.isLt j.isLt (fun e => other (Fin.ext e.symm))⟩
      have target : (s.psc.profiles.set i (cutProfile s.cutWrite.free))[i] = cutProfile s.cutWrite.free :=
        Vector.getElem_set_self i.isLt
      rw [target]
      exact cutProfile_bad _
    · obtain ⟨profiles, protection⟩ := pinReset_of_protection s.cutWrite.free burn
      rw [psc]
      dsimp only
      rw [protection]
      exact ⟨profiles, cutProtection_bad _⟩
    · rw [psc]
      dsimp only
      rw [loadShadow_slot, decide_eq_true_eq]
      exact ⟨.rfl, fun _ => rfl⟩
    · rw [psc] at good ⊢
      exact loadShadow_of_good _ good
    · rw [psc] at wrong ⊢
      exact loadShadow_of_bad _ wrong
    · rw [bad, psc]
      exact badStore_iff _
    · rw [mem, ecc, cutWrite_of_noWrite unwritten]
      exact ⟨rfl, rfl⟩
    · rw [ecc]
      exact markOf_cutWrite_other grant write other
    · rw [mem]
      exact readByte_cutWrite_outside grant write canonical outside

end Sys2Proof.Proofs
end

section
/-! The seam unit hands its commits on (06 R107, R118 to R120, 07 R122): what a job writes to the key records, what the hand-over of a commit changes, and the settled O35. -/
namespace Sys2Proof.Proofs
open Sys2Proof.Machine

/-! ### What a job writes (06 R118 steps 1 to 3, R120) -/

/-- 06 R118: a key with the gain of its job, GAIN_LIMIT where the gain was clamped, DAMAGED where `bad`. -/
def gainedKey (gain : Nat × Bool) (bad : Bool) (r : KeyRecord) : KeyRecord :=
  { r with gain := some gain.1
           flags := { r.flags with gainLimit := r.flags.gainLimit || gain.2, damaged := r.flags.damaged || bad } }

/-- 06 R118, R120: a key SEAMED with the seam of its job, NARROW where the seam is straight, DAMAGED where `bad`. -/
def seamedKey (seam : Option (List Int) × Bool) (bad : Bool) (r : KeyRecord) : KeyRecord :=
  { r with seam := seam.1, state := .seamed
           flags := { r.flags with narrow := r.flags.narrow || seam.2, damaged := r.flags.damaged || bad } }

/-- 06 R120: a key DAMAGED where `bad`. -/
def damagedKey (bad : Bool) (r : KeyRecord) : KeyRecord :=
  { r with flags := { r.flags with damaged := r.flags.damaged || bad } }

theorem gainedKey_sameTaking (gain : Nat × Bool) (bad : Bool) (r : KeyRecord) : (gainedKey gain bad r).SameTaking r :=
  ⟨rfl, rfl, rfl, rfl, rfl, rfl, rfl, rfl⟩

theorem seamedKey_sameTaking (seam : Option (List Int) × Bool) (bad : Bool) (r : KeyRecord) :
    (seamedKey seam bad r).SameTaking r := ⟨rfl, rfl, rfl, rfl, rfl, rfl, rfl, rfl⟩

theorem keyOr_of_key {s : State} {k : Nat} {r : KeyRecord} (h : s.swc.keys[k]? = some r) : s.keyOr k = r := by
  unfold State.keyOr State.keyAt
  rw [h]
  rfl

/-- 06 R118: an ordinary job writes to the keys on both its sides, each marked for its own errors. -/
theorem writeJob_ordinary_keys {s : State} {k : Nat} {l r : KeyRecord} (pos : 1 ≤ k) (hl : s.swc.keys[k - 1]? = some l)
    (hr : s.swc.keys[k]? = some r) (failed : List Nat) :
    (s.writeJob failed (.ordinary k)).swc.keys[k - 1]?
        = some (seamedKey (s.jobSeam failed (.ordinary k)) (failedInSlot failed l.slot) l)
      ∧ (s.writeJob failed (.ordinary k)).swc.keys[k]?
        = some (gainedKey (s.jobGain k failed) (failedInSlot failed r.slot) r) := by
  have written : s.writeJob failed (.ordinary k)
      = (s.updateKey k (gainedKey (s.jobGain k failed) (failedInSlot failed (s.keyOr k).slot))).updateKey (k - 1)
          (seamedKey (s.jobSeam failed (.ordinary k)) (failedInSlot failed (s.keyOr (k - 1)).slot)) := rfl
  rw [written, keyOr_of_key hl, keyOr_of_key hr]
  constructor
  · rw [keyAt_updateKey, if_pos rfl, keyAt_updateKey, if_neg (by omega), hl]
    rfl
  · rw [keyAt_updateKey, if_neg (by omega), keyAt_updateKey, if_pos rfl, hr]
    rfl

/-- 06 R120: the closure job writes the seam to key n, and to key 0 no more than the errors on held strips. -/
theorem writeJob_closure_keys {s : State} {n : Nat} {l z : KeyRecord} (pos : 1 ≤ n) (hl : s.swc.keys[n]? = some l)
    (hz : s.swc.keys[0]? = some z) (failed : List Nat) :
    (s.writeJob failed (.closure n)).swc.keys[n]?
        = some (seamedKey (s.jobSeam failed (.closure n)) (failedInSlot failed l.slot) l)
      ∧ (s.writeJob failed (.closure n)).swc.keys[0]? = some (damagedKey (failedInStrips failed) z) := by
  have written : s.writeJob failed (.closure n)
      = (s.updateKey n (seamedKey (s.jobSeam failed (.closure n)) (failedInSlot failed (s.keyOr n).slot))).updateKey 0
          (damagedKey (failedInStrips failed)) := rfl
  rw [written, keyOr_of_key hl]
  constructor
  · rw [keyAt_updateKey, if_neg (by omega), keyAt_updateKey, if_pos rfl, hl]
    rfl
  · rw [keyAt_updateKey, if_pos rfl, keyAt_updateKey, if_neg (by omega), hz]
    rfl

/-! ### A commit is handed on (06 R118 steps 4 to 6) -/

/-- 06 R118 step 5: the jobs that take the place of a job that leaves: the closure job of a CLOSURE key. -/
def jobsAfter (s : State) : SeamJob → List SeamJob
  | .ordinary k => if (s.keyOr k).source = .closure then [.closure k] else []
  | .closure _ => []

theorem jobsAfter_of_key {s : State} {k : Nat} {r : KeyRecord} (h : s.swc.keys[k]? = some r) :
    jobsAfter s (.ordinary k) = if r.source = .closure then [.closure k] else [] := by
  simp only [jobsAfter, keyOr_of_key h]

theorem leaveSeam_queue (s : State) (job : SeamJob) (rest : List SeamJob) :
    (s.leaveSeam job rest).smu.queue = rest ++ jobsAfter s job := by
  unfold State.leaveSeam
  rw [startSeam_queue]
  cases job <;> rfl

/-- From `s` to `t` a job has left the seam unit and its commit has entered the commit queue. -/
structure Handed (s t : State) (job : SeamJob) (rest : List SeamJob) : Prop where
  keys : t.swc.keys = s.swc.keys
  blu : t.blu = (s.enterCommit job.commit).blu
  begun : s.blu.queue = [] → t.CommitBegun job.commit
  jobs : t.smu.queue = rest ++ jobsAfter s job
  next : t.NextSeamBegun

theorem handCommit_handed (s : State) (job : SeamJob) (rest : List SeamJob) : Handed s (s.handCommit job rest) job rest := by
  have entry := enterCommit_frame s job.commit
  have leave := leaveSeam_frame (s.enterCommit job.commit) job rest
  have swc := leave.swc (by decide)
  have blu := leave.blu (by decide)
  have after : jobsAfter (s.enterCommit job.commit) job = jobsAfter s job := by
    unfold jobsAfter State.keyOr State.keyAt
    rw [entry.swc (by decide)]
  exact {
    keys := congrArg Swc.keys (swc.trans (entry.swc (by decide)))
    blu := blu
    begun := fun empty => (enterCommit_begun job.commit empty).of_same blu (congrArg Cvm.um (leave.cvm (by decide)))
      (congrArg Swc.config swc) (congrArg Swc.keys swc)
    jobs := (leaveSeam_queue _ job rest).trans (congrArg (rest ++ ·) after)
    next := leaveSeam_begun _ job rest }

theorem Handed.settled {s t : State} {job : SeamJob} {rest : List SeamJob} (h : Handed s t job rest) :
    Handed s t.settle job rest where
  keys := (settle_keys t).trans h.keys
  blu := (settle_blu t).trans h.blu
  begun := fun empty => (h.begun empty).settled
  jobs := (congrArg Smu.queue (settle_smu t)).trans h.jobs
  next := h.next.of_smu (settle_smu t)

/-- 07 R122, R123: the place, the counts and the frontier, and, behind another commit, that one's run. -/
theorem Handed.entry {s t : State} {job : SeamJob} {rest : List SeamJob} (h : Handed s t job rest) :
    t.blu.queue = s.blu.queue ++ [job.commit] ∧ t.blu.frontier = s.blu.frontier
      ∧ t.blu.entered = s.blu.entered + (if job.commit.kind = .ordinary then 1 else 0)
      ∧ t.blu.finalEntered = (s.blu.finalEntered || decide (job.commit.kind ≠ .ordinary))
      ∧ (s.blu.queue ≠ [] → t.blu.run = s.blu.run ∧ t.blu.state = s.blu.state) := by
  rw [h.blu]
  exact enterCommit_blu s job.commit

/-! ### SEAM_JOB_DONE (06 R118, R120) -/

section
variable {s : State} {rd : ReadSet} {job : SeamJob} {rest : List SeamJob}

/-- 06 R118: once its reads are made a job writes its results, and its commit is handed on when the commit queue has room. -/
theorem exec_seamJobDone (hrun : s.smu.run = some { rd := rd, held := false }) (hq : s.smu.queue = job :: rest)
    (reads : s.nextSeamRead = none) : exec .seamJobDone s
      = if (s.writeJob rd.failed job).commitRoom then .next ((s.writeJob rd.failed job).handCommit job rest).settle
        else .next ({ s.writeJob rd.failed job with smu.run := some { rd := rd, held := true } } : State).settle := by
  show execSeamJobDone s = _
  unfold execSeamJobDone
  rw [hrun, hq]
  exact if_pos ⟨rfl, reads⟩

/-- A finished job's results stand in the key table whether its commit enters or the job waits with them. -/
theorem seamJobDone_outcome (hrun : s.smu.run = some { rd := rd, held := false }) (hq : s.smu.queue = job :: rest)
    (reads : s.nextSeamRead = none) : ∃ t, exec .seamJobDone s = .next t
      ∧ t.swc.keys = (s.writeJob rd.failed job).swc.keys
      ∧ (s.blu.queue.length < 2 → Handed (s.writeJob rd.failed job) t job rest)
      ∧ (2 ≤ s.blu.queue.length →
          t.blu.queue = s.blu.queue ∧ t.smu.queue = s.smu.queue ∧ t.smu.run = some { rd := rd, held := true }) := by
  have written := writeJob_frame s rd.failed job
  have blu : (s.writeJob rd.failed job).blu = s.blu := written.blu (by decide)
  have smu : (s.writeJob rd.failed job).smu = s.smu := written.smu (by decide)
  have room : (s.writeJob rd.failed job).commitRoom = true ↔ s.blu.queue.length < 2 := by rw [commitRoom_iff, blu]
  rw [exec_seamJobDone hrun hq reads]
  split
  · next free =>
    have handed := (handCommit_handed (s.writeJob rd.failed job) job rest).settled
    exact ⟨_, rfl, handed.keys, fun _ => handed, fun full => absurd (room.mp free) (by omega)⟩
  · next full =>
    refine ⟨_, rfl, settle_keys _, fun free => absurd (room.mpr free) full, fun _ => ?_⟩
    rw [settle_blu, settle_smu]
    exact ⟨congrArg Blu.queue blu, (congrArg Smu.queue smu :), rfl⟩

end

/-- Settles O35: the results of the job, then the commit handed on or the job waiting. -/
theorem seamJobCompletes : Obligations.SeamJobCompletes := by
  refine ⟨fun s rd k rest l r hrun hq reads pos hl hr => ?_, fun s rd n rest l z hrun hq reads pos hl hz => ?_⟩
  · obtain ⟨t, run, keys, enters, waits⟩ := seamJobDone_outcome hrun hq reads
    obtain ⟨left, right⟩ := writeJob_ordinary_keys pos hl hr rd.failed
    refine ⟨t, _, _, run, (congrArg (·[_]?) keys).trans left, (congrArg (·[_]?) keys).trans right, rfl, rfl, rfl, rfl,
      seamedKey_sameTaking _ _ l, gainedKey_sameTaking _ _ r, rfl, rfl, fun room => ?_, waits⟩
    have handed := enters room
    have jobs := handed.jobs
    obtain ⟨queue, frontier, entered, _, behind⟩ := handed.entry
    rw [jobsAfter_of_key right] at jobs
    exact ⟨queue, frontier, entered, handed.begun, behind, jobs, handed.next⟩
  · obtain ⟨t, run, keys, enters, waits⟩ := seamJobDone_outcome hrun hq reads
    obtain ⟨left, zero⟩ := writeJob_closure_keys pos hl hz rd.failed
    refine ⟨t, _, _, run, (congrArg (·[_]?) keys).trans left, (congrArg (·[_]?) keys).trans zero, rfl, rfl, fun room => ?_, waits⟩
    have handed := enters room
    obtain ⟨queue, frontier, _, final, behind⟩ := handed.entry
    exact ⟨queue, frontier, final.trans (Bool.or_true _), handed.begun, behind, handed.jobs.trans (List.append_nil rest),
      handed.next⟩

end Sys2Proof.Proofs
end

section
/-! The queues move (06 R119, 07 R122, R123, R125, R126, R135): the closure job begins, waiting and final commits enter and begin with their spans, and the settled O36. -/
namespace Sys2Proof.Proofs
open Sys2Proof.Machine

/-! ### The closure job begins (06 R119) -/

theorem committedBefore_of {s : State} {n : Nat} {l : KeyRecord} (hl : s.swc.keys[n - 1]? = some l)
    (done : l.state = .committed ∨ l.state = .released) : s.committedBefore n = true := by
  unfold State.committedBefore State.keyAt
  rw [hl, Option.map_some]
  rcases done with e | e <;> rw [e]

theorem exec_closureJobBegin {s : State} {n : Nat} {rest : List SeamJob} (idle : s.smu.run = none)
    (hq : s.smu.queue = .closure n :: rest) (committed : s.committedBefore n = true) :
    exec .closureJobBegin s = .next ({ s with smu.run := some {} } : State).settle := by
  show execClosureJobBegin s = _
  unfold execClosureJobBegin
  rw [idle, hq]
  exact if_pos committed

/-- 05 R100: with a key in the table a seam job is work left. -/
theorem hasWork_of_job {s : State} {k : Nat} {l : KeyRecord} {job : SeamJob} {rest : List SeamJob}
    (hl : s.swc.keys[k]? = some l) (hq : s.smu.queue = job :: rest) : s.FinishingHasWork := by
  rintro _ ⟨_, _, _, none | ⟨_, _, empty, _⟩⟩
  · rw [none] at hl
    cases hl
  · rw [hq] at empty
    cases empty

/-! ### The span of a commit that enters an empty queue (07 R123, R125, R126, R135) -/

theorem spanEnd_of_seam {s : State} {k : Nat} {q : KeyRecord} {x : Int} {xs : List Int} (hq : s.swc.keys[k]? = some q)
    (seam : q.seam = some (x :: xs)) : s.spanEnd { kind := .ordinary, key := k } = leastInt 0 (x :: xs) - 8 := by
  simp only [State.spanEnd, keyOr_of_key hq, seam]

/-- 07 R123: in BLU a commit has begun whose span runs from `frontier` to `hi`, but never ends before `frontier`. -/
def SpanBegun (b : Blu) (frontier hi : Int) : Prop :=
  ∃ run, b.run = some run ∧ b.state = .writing ∧ run.spanLo = frontier ∧ run.spanHi = max frontier hi

/-- 07 R123: a commit that enters an empty queue begins at once with the span that `spanEnd` gives. -/
theorem enterCommit_span {s : State} {c : Commit} {hi : Int} (empty : s.blu.queue = []) (ends : s.spanEnd c = hi) :
    SpanBegun (s.enterCommit c).blu s.blu.frontier hi := by
  rw [← ends]
  unfold State.enterCommit State.beginCommit
  rw [if_pos empty, empty]
  exact ⟨_, rfl, rfl, rfl, rfl⟩

/-- 07 R127: the column mapping of such a commit wraps at Um in a full circle. -/
theorem enterCommit_wrap {s : State} {c : Commit} {run : CommitRun} (empty : s.blu.queue = [])
    (hrun : (s.enterCommit c).blu.run = some run) (circle : s.cfg.extent = .fullCircle) : run.wrap = s.cvm.um := by
  unfold State.enterCommit State.beginCommit at hrun
  rw [if_pos empty, empty] at hrun
  cases hrun
  exact if_pos circle

/-! ### COMMIT_ENTER (07 R122) -/

theorem exec_commitEnter {s : State} {rd : ReadSet} {job : SeamJob} {rest : List SeamJob}
    (hrun : s.smu.run = some { rd := rd, held := true }) (hq : s.smu.queue = job :: rest) (room : s.blu.queue.length < 2) :
    exec .commitEnter s = .next (s.handCommit job rest).settle := by
  show execCommitEnter s = _
  unfold execCommitEnter
  rw [hrun, hq]
  exact if_pos ⟨rfl, (commitRoom_iff s).mpr room⟩

/-! ### FINAL_COMMIT_ENTER (07 R126) -/

/-- 07 R126: without a mark, in a CLOSED session, and once the final commit has entered, no final commit is due. -/
theorem finalCommitDue_of_not {s : State} (h : s.blu.finalEntered = true ∨ s.swc.endCause = some .closed ∨ s.blu.mark = none) :
    s.finalCommitDue = false := by
  unfold State.finalCommitDue
  rcases h with entered | closed | unmarked
  · split <;> simp [entered]
  · split <;> simp [closed]
  · rw [unmarked]

theorem finalCommitDue_of {s : State} {n : Nat} (mark : s.blu.mark = some n) (cause : s.swc.endCause ≠ some .closed)
    (waits : s.blu.finalEntered = false) (before : n ≤ s.blu.entered) (room : s.blu.queue.length < 2) :
    s.finalCommitDue = true := by
  unfold State.finalCommitDue
  rw [mark]
  exact Bool.and_eq_true_iff.mpr ⟨decide_eq_true ⟨cause, waits, before⟩, (commitRoom_iff s).mpr room⟩

theorem exec_finalCommitEnter_of_due {s : State} {n : Nat} (mark : s.blu.mark = some n) (due : s.finalCommitDue = true) :
    exec .finalCommitEnter s = .next (s.enterCommit { kind := .final, key := n }).settle := by
  show execFinalCommitEnter s = _
  unfold execFinalCommitEnter
  rw [if_pos due, mark]
  rfl

theorem exec_finalCommitEnter_of_notDue {s : State} (h : s.finalCommitDue = false) : exec .finalCommitEnter s = .next s :=
  if_neg (by rw [h]; decide)

/-- Settles O36: the closure job's beginning, the commit handed on by a waiting job, and the final commit. -/
theorem queuesMove : Obligations.QueuesMove := by
  refine ⟨fun s n rest l idle hq hl done => ?_, fun s rd job rest hrun hq room => ?_,
    fun s h => exec_finalCommitEnter_of_notDue (finalCommitDue_of_not h),
    fun s n mark cause waits before room => ?_⟩
  · refine ⟨_, exec_closureJobBegin idle hq (committedBefore_of hl done), ?_, ?_, settle_of_hasWork (hasWork_of_job hl hq)⟩
    · rw [settle_smu]
    · rw [settle_smu]
  · have handed := (handCommit_handed s job rest).settled
    obtain ⟨queue, _, entered, final, behind⟩ := handed.entry
    have jobs := handed.jobs
    refine ⟨_, exec_commitEnter hrun hq room, handed.keys, handed.next, behind, fun k e => ?_, fun n e => ?_⟩
    · subst e
      refine ⟨queue, entered, fun other => ?_, fun closure => ?_, fun q x xs empty hk seam => ?_, fun q empty hk seam => ?_⟩
      · rw [jobs, jobsAfter, if_neg other, List.append_nil]
      · rw [jobs, jobsAfter, if_pos closure]
      · rw [handed.blu]
        exact enterCommit_span empty (spanEnd_of_seam hk seam)
      · obtain ⟨_, absent, _, _⟩ := spanEnd_ends s { kind := .ordinary, key := k - 1 } q hk
        rw [handed.blu]
        exact enterCommit_span empty (absent rfl seam)
    · subst e
      refine ⟨queue, entered, jobs.trans (List.append_nil rest), final.trans (Bool.or_true _), fun q um empty hk accepted => ?_⟩
      obtain ⟨_, _, _, wrapped⟩ := spanEnd_ends s { kind := .closure, key := n } q hk
      obtain ⟨run, begun, writing, lo, hi⟩ := enterCommit_span empty (wrapped rfl um accepted)
      rw [handed.blu]
      exact ⟨run, begun, writing, lo, hi, fun circle => (enterCommit_wrap empty begun circle).trans accepted⟩
  · obtain ⟨queue, _, _, final, _⟩ := enterCommit_blu s { kind := .final, key := n }
    refine ⟨_, exec_finalCommitEnter_of_due mark (finalCommitDue_of mark cause waits before room), ?_, ?_, ?_,
      fun q empty hk => ?_⟩
    · rw [settle_blu, queue]
    · rw [settle_blu, final]
      exact Bool.or_true _
    · rw [settle_keys, (enterCommit_frame s _).swc (by decide)]
    · obtain ⟨_, _, right, _⟩ := spanEnd_ends s { kind := .final, key := n } q hk
      rw [settle_blu]
      exact enterCommit_span empty (right rfl)

end Sys2Proof.Proofs
end

section
/-! The open request for a strip (08 R138 to R142): its four answers, the record of a strip that is opened, and the settled O37. -/
namespace Sys2Proof.Proofs
open Sys2Proof.Machine

/-! ### The command (07 R132) -/

theorem exec_stripOpenRequest {s : State} {run : CommitRun} (hrun : s.blu.run = some run) (writing : s.blu.state = .writing)
    (left : run.cursor < run.spanHi) (written : s.nextBlu = none) :
    exec .stripOpenRequest s = .next (s.openStrip (run.nextPart false).strip).settle := by
  show execStripOpenRequest s = _
  unfold execStripOpenRequest
  rw [hrun]
  exact if_pos ⟨writing, left, by unfold State.partWritten; rw [written]; rfl⟩

/-- 07 R132: a WRITING BLU goes on to the part of its run that lies in the strip opened. -/
theorem openPart_blu {s : State} {run : CommitRun} (hrun : s.blu.run = some run) (writing : s.blu.state = .writing)
    (created : Bool) : (s.openPart created).blu = { s.blu with run := some { run with
      part := some (run.nextPart created), cursor := (run.nextPart created).hi } } := by
  unfold State.openPart
  rw [hrun, ← writing]
  rfl

/-! ### The four answers (08 R140 to R142) -/

section
variable {s : State} {j : Nat} {occ : Strip}

theorem openStrip_of_opened {r : Strip} (strip : s.stripAt j = some r) (opened : r.state = .opened) :
    s.openStrip j = s.openPart false := by
  unfold State.openStrip
  rw [strip]
  exact if_pos opened

theorem openStrip_of_free (absent : s.stripAt j = none) (free : s.occupantOf j = none) :
    s.openStrip j = (s.createStrip j).openPart true := by
  unfold State.openStrip
  rw [absent, free]

theorem openStrip_of_wait (absent : s.stripAt j = none) (occupied : s.occupantOf j = some occ)
    (waits : s.cfg.policy = .wait ∨ occ.state ≠ .final ∨ occ.error = true) : s.openStrip j = s.beginWait j occ := by
  have kept : ¬ (s.cfg.policy = .overwrite ∧ occ.state = .final ∧ occ.error = false) := by
    rintro ⟨overwrite, final, clear⟩
    rcases waits with wait | notFinal | marked
    · exact absurd (overwrite.symm.trans wait) (by decide)
    · exact notFinal final
    · exact absurd (clear.symm.trans marked) (by decide)
  unfold State.openStrip
  rw [absent, occupied]
  exact if_neg kept

theorem openStrip_of_discard (absent : s.stripAt j = none) (occupied : s.occupantOf j = some occ)
    (overwrite : s.cfg.policy = .overwrite) (final : occ.state = .final) (clear : occ.error = false) :
    s.openStrip j = ((s.discardStrip occ).createStrip j).openPart true := by
  unfold State.openStrip
  rw [absent, occupied]
  exact if_pos ⟨overwrite, final, clear⟩

/-- The occupant of the slot of a strip that is not in the table is another strip. -/
theorem occupant_ne (absent : s.stripAt j = none) (occupied : s.occupantOf j = some occ) : occ.index ≠ j := by
  have other := List.find?_eq_none.mp absent occ (List.mem_of_find?_eq_some occupied)
  rwa [beq_iff_eq] at other

end

/-! ### The record of a strip that is opened (08 R138, R139, R149) -/

theorem freshStrip_fresh (s : State) (j : Nat) : s.Fresh j (s.freshStrip j) := by
  unfold State.Fresh State.freshStrip
  cases s.cvm.um with
  | none => exact ⟨rfl, rfl, rfl, rfl, rfl, fun _ => ⟨rfl, rfl, rfl⟩, fun _ h => nomatch h⟩
  | some um =>
    refine ⟨rfl, rfl, rfl, rfl, rfl, (fun h => nomatch h), fun um' h => ?_⟩
    obtain rfl := Option.some.inj h
    exact ⟨fun at_last => ⟨if_pos at_last, decide_eq_true at_last⟩,
      fun elsewhere => ⟨if_neg elsewhere, decide_eq_false elsewhere⟩, decide_eq_true_iff⟩

/-- The record of an opening rests on the session's configuration and on Um alone. -/
theorem freshStrip_congr {s t : State} (swc : t.swc = s.swc) (um : t.cvm.um = s.cvm.um) (j : Nat) :
    t.freshStrip j = s.freshStrip j := by
  unfold State.freshStrip State.slotOfStrip State.cfg
  rw [swc, um]

/-- 08 R139: the strip created, as the part of the commit in it begins. -/
theorem stripAt_opened {s : State} {j : Nat} (absent : s.stripAt j = none) (k : Nat) :
    ((s.createStrip j).openPart true).stripAt k = if k = j then some (s.freshStrip j) else s.stripAt k :=
  stripAt_createStrip absent k

/-! ### The wait (08 R141) -/

section
variable (s : State) (j : Nat) (occ : Strip)

theorem beginWait_blu : (s.beginWait j occ).blu.state = .waiting :=
  congrArg Blu.state ((notifyCanvas_frame _ _ _).blu (by decide))

theorem beginWait_cvm : (s.beginWait j occ).cvm
    = { s.cvm with wait := some { strip := j, occupant := occ.index, occupantState := occ.state } } :=
  (notifyCanvas_frame _ _ _).cvm (by decide)

theorem beginWait_noticed :
    s.Noticed (s.beginWait j occ) (.canvas s.swc.id j occ.index occ.state s.cfg.policy false) :=
  (notify_noticed _ _).of_lku rfl

end

/-! ### The discard (08 R142) -/

section
variable (s : State) (occ : Strip)

theorem discardStrip_cvm : (s.discardStrip occ).cvm = ((s.removeStrip occ.index).countDiscarded).cvm :=
  ((forgetTransfer_frame _ _).cvm (by decide)).trans ((notifyStrip_frame _ _ _ _ _).cvm (by decide))

theorem stripAt_discardStrip (k : Nat) : (s.discardStrip occ).stripAt k = if k = occ.index then none else s.stripAt k := by
  rw [← stripAt_removeStrip s occ.index k]
  exact stripAt_of_cvm (discardStrip_cvm s occ) k

theorem discardStrip_noticed :
    s.Noticed (s.discardStrip occ) (.strip s.swc.id occ.index .discarded occ.holes occ.damaged 0) :=
  ((notify_noticed ((s.removeStrip occ.index).countDiscarded) _).of_lku rfl).kept
    (.of_lku ((forgetTransfer_frame _ _).lku (by decide)))

/-- 09 R153: the transfer number and record go with the strip that they count. -/
theorem discardStrip_opu : (s.discardStrip occ).opu
    = if s.sentBefore occ.index = true then { s.opu with number := 0, xfer := none } else s.opu := by
  have opu : (((s.removeStrip occ.index).countDiscarded).notifyStrip s.swc.id occ .discarded 0).opu = s.opu :=
    (notifyStrip_frame _ _ _ _ _).opu (by decide)
  show (State.forgetTransfer _ _).opu = _
  unfold State.forgetTransfer
  rw [hasBeenSending_eq, State.sentBefore, State.sentBefore, opu]
  split
  · exact congrArg (fun x : Opu => { x with number := 0, xfer := none }) opu
  · exact opu

/-- 08 R137: a DAMAGED strip that leaves is counted. -/
theorem discardStrip_damaged (strip : s.stripAt occ.index = some occ) : (s.discardStrip occ).cvm.damaged
    = if occ.damaged = true then min 65535 (s.cvm.damaged + 1) else s.cvm.damaged := by
  rw [discardStrip_cvm, State.countDiscarded_cvm]
  unfold State.removeStrip
  dsimp only
  rw [strip]
  rfl

theorem freshStrip_discardStrip (j : Nat) : (s.discardStrip occ).freshStrip j = s.freshStrip j :=
  freshStrip_congr ((discardStrip_frame s occ).swc (by decide)) (by rw [discardStrip_cvm]; rfl) j

end

/-- 08 R142: the strip asked for opened once the occupant of its slot is discarded. -/
def openedInPlace (s : State) (occ : Strip) (j : Nat) : State := ((s.discardStrip occ).createStrip j).openPart true

section
variable {s : State} {occ : Strip} {j : Nat}

theorem stripAt_openedInPlace (absent : s.stripAt j = none) (k : Nat) : (openedInPlace s occ j).stripAt k
    = if k = j then some (s.freshStrip j) else if k = occ.index then none else s.stripAt k := by
  have absent' : (s.discardStrip occ).stripAt j = none := by rw [stripAt_discardStrip, absent, ite_self]
  unfold openedInPlace
  rw [stripAt_opened absent', stripAt_discardStrip, freshStrip_discardStrip]

/-- Beside the table CVM's record is as the discard leaves it. -/
theorem openedInPlace_cvm (s : State) (occ : Strip) (j : Nat) : (openedInPlace s occ j).cvm
    = { ((s.removeStrip occ.index).countDiscarded).cvm with strips := (openedInPlace s occ j).cvm.strips } := by
  rw [← discardStrip_cvm]
  rfl

theorem openedInPlace_blu {run : CommitRun} (hrun : s.blu.run = some run) (writing : s.blu.state = .writing) :
    (openedInPlace s occ j).blu = { s.blu with run := some { run with
      part := some (run.nextPart true), cursor := (run.nextPart true).hi } } := by
  have blu : ((s.discardStrip occ).createStrip j).blu = s.blu := (discardStrip_frame s occ).blu (by decide)
  unfold openedInPlace
  rw [openPart_blu (run := run) (by rw [blu, hrun]) (by rw [blu, writing]), blu]

end

/-- Settles O37: the answers one by one; what a discard opens is looked up in the table that the discard leaves. -/
theorem stripRequestAnswered : Obligations.StripRequestAnswered := by
  intro s run j hrun writing left written strip
  subst strip
  have command := exec_stripOpenRequest hrun writing left written
  generalize (run.nextPart false).strip = j at command ⊢
  obtain ⟨opened, slot⟩ := freshStrip_opened s j
  have fresh := freshStrip_fresh s j
  refine ⟨fun ⟨r, strip, opened⟩ => ?_, fun absent free => ?_, fun occ absent occupied waits => ?_,
    fun occ absent occupied overwrite final clear => ?_⟩
  · rw [openStrip_of_opened strip opened] at command
    exact ⟨_, command, congrArg Cvm.strips (settle_cvm _), settle_opu _,
      (settle_blu _).trans (openPart_blu hrun writing false)⟩
  · rw [openStrip_of_free absent free] at command
    have lookup (k : Nat) := (stripAt_of_cvm (settle_cvm _) k).trans (stripAt_opened absent k)
    have ⟨_, _, holes, _, error, _⟩ := fresh
    exact ⟨_, _, command, (lookup j).trans (if_pos rfl), opened, holes, error, slot, fresh,
      fun i other => (lookup i).trans (if_neg other), (congrArg Cvm.outQueue (settle_cvm _)).trans rfl, settle_opu _,
      (settle_blu _).trans (openPart_blu (s := s.createStrip j) hrun writing true)⟩
  · rw [openStrip_of_wait absent occupied waits] at command
    refine ⟨_, command, (congrArg Blu.state (settle_blu _)).trans (beginWait_blu s j occ), ?_⟩
    rw [settle_cvm, beginWait_cvm]
    exact ⟨rfl, rfl, rfl, (beginWait_noticed s j occ).kept (settle_notices _)⟩
  · rw [openStrip_of_discard absent occupied overwrite final clear] at command
    have lookup (k : Nat) := (stripAt_of_cvm (settle_cvm (openedInPlace s occ j)) k).trans (stripAt_openedInPlace absent k)
    have opu := (settle_opu (openedInPlace s occ j)).trans (discardStrip_opu s occ)
    have cvm := (settle_cvm (openedInPlace s occ j)).trans (openedInPlace_cvm s occ j)
    refine ⟨(openedInPlace s occ j).settle, _, command, ?_, ?_, congrArg Cvm.discarded cvm, fun strip => ?_,
      (lookup j).trans (if_pos rfl), opened, slot, fresh, fun i ni no => ?_, fun sent => ?_, fun unsent => ?_,
      (settle_blu _).trans (openedInPlace_blu hrun writing), (congrArg Cvm.wait cvm).trans rfl,
      (discardStrip_noticed s occ).kept (settle_notices _)⟩
    · rw [lookup, if_neg (occupant_ne absent occupied), if_pos rfl]
    · rw [cvm]
      exact outQueue_removeStrip s occ.index
    · rw [cvm, ← discardStrip_damaged s occ strip, discardStrip_cvm]
    · rw [lookup, if_neg ni, if_neg no]
    · rw [opu, if_pos sent]
    · rw [opu, if_neg (by rw [unsent]; decide)]

end Sys2Proof.Proofs
end

section
/-! The end of the session's last commit (07 R134, R135, 08 R143 to R145): its keys released, the last strip fixed and every strip made FINAL in the order of the output queue, and the settled O39. -/
namespace Sys2Proof.Proofs
open Sys2Proof.Machine

/-! ### The key states (07 R134 steps 1 and 2) -/

/-- A final or closure commit releases its own key and the key before it. -/
theorem keyAt_commitKeys_last (s : State) {kind : CommitKind} (last : kind = .final ∨ kind = .closure) (n k : Nat) :
    (s.commitKeys { kind := kind, key := n }).swc.keys[k]?
      = if n = k ∨ n = k + 1 then (s.swc.keys[k]?).map releasedKey else s.swc.keys[k]? := by
  have keys : s.commitKeys { kind := kind, key := n } = if n = 0 then (s.updateKey n committedKey).releaseKey n
      else ((s.updateKey n committedKey).releaseKey n).releaseKey (n - 1) := by
    rcases last with rfl | rfl <;> rfl
  have own : ((s.updateKey n committedKey).releaseKey n).swc.keys[k]?
      = if n = k then (s.swc.keys[k]?).map releasedKey else s.swc.keys[k]? := by
    rw [keyAt_releaseKey, keyAt_updateKey]
    by_cases same : n = k
    · rw [if_pos same, if_pos same, if_pos same, Option.map_map]
      rfl
    · rw [if_neg same, if_neg same, if_neg same]
  rw [keys]
  by_cases zero : n = 0
  · rw [if_pos zero, own]
    exact if_congr (by omega) rfl rfl
  · rw [if_neg zero, keyAt_releaseKey, own]
    by_cases before : n - 1 = k
    · rw [if_pos before, if_neg (by omega), if_pos (by omega)]
      rfl
    · rw [if_neg before]
      exact if_congr (by omega) rfl rfl

/-! ### Strips made FINAL one class after the other (08 R143, R144) -/

/-- 08 R143: an OPEN strip of a class made FINAL. -/
def madeFinal (p : Strip → Bool) (r : Strip) : Strip := if r.state = .opened ∧ p r then { r with state := .final } else r

/-- 08 R143: the strips that join the output queue as their class is made FINAL. -/
def joining (p : Strip → Bool) (l : List Strip) : List Nat :=
  (l.filter (fun r => decide (r.state = .opened) && p r)).map Strip.index

theorem finalise_cvm (s : State) (p : Strip → Bool) : (s.finalise p).cvm = { s.cvm with
    strips := s.cvm.strips.map (madeFinal p), outQueue := s.cvm.outQueue ++ joining p s.cvm.strips } := rfl

theorem madeFinal_index (p : Strip → Bool) (r : Strip) : (madeFinal p r).index = r.index := by
  unfold madeFinal
  split <;> rfl

/-- A strip made FINAL belongs to no later class. -/
theorem madeFinal_madeFinal (p q : Strip → Bool) (r : Strip) :
    madeFinal q (madeFinal p r) = madeFinal (fun x => p x || q x) r := by
  by_cases first : r.state = .opened ∧ p r
  · have made : madeFinal p r = { r with state := .final } := if_pos first
    rw [made, madeFinal, madeFinal, if_neg (fun h => nomatch h.1), if_pos ⟨first.1, by simp [first.2]⟩]
  · have kept : madeFinal p r = r := if_neg first
    rw [kept]
    exact if_congr (by simp only [Bool.or_eq_true]; tauto) rfl rfl

theorem map_madeFinal_madeFinal (p q : Strip → Bool) (l : List Strip) :
    (l.map (madeFinal p)).map (madeFinal q) = l.map (madeFinal (fun x => p x || q x)) := by
  rw [List.map_map]
  exact List.map_congr_left fun r _ => madeFinal_madeFinal p q r

/-- Of a later class those join that no earlier one took. -/
theorem joining_map_madeFinal (p q : Strip → Bool) (l : List Strip) :
    joining q (l.map (madeFinal p)) = joining (fun x => !p x && q x) l := by
  have left (r : Strip) : (decide ((madeFinal p r).state = .opened) && q (madeFinal p r))
      = (decide (r.state = .opened) && (!p r && q r)) := by
    unfold madeFinal
    split
    · next taken => simp [taken.2]
    · next kept =>
      by_cases opened : r.state = .opened
      · have : p r = false := by simpa [opened] using kept
        simp [this]
      · simp [opened]
  unfold joining
  rw [List.filter_map, List.map_map]
  have index : Strip.index ∘ madeFinal p = Strip.index := funext (madeFinal_index p)
  rw [index]
  exact congrArg (List.map Strip.index) (List.filter_congr fun r _ => left r)

/-- 08 R144: three classes made FINAL one after the other. -/
theorem finalise_three_cvm (s : State) (p q h : Strip → Bool) : (((s.finalise p).finalise q).finalise h).cvm = { s.cvm with
    strips := s.cvm.strips.map (madeFinal (fun r => p r || (q r || h r)))
    outQueue := s.cvm.outQueue ++ joining p s.cvm.strips ++ joining (fun r => !p r && q r) s.cvm.strips
      ++ joining (fun r => !p r && (!q r && h r)) s.cvm.strips } := by
  rw [finalise_cvm, finalise_cvm, finalise_cvm]
  dsimp only
  rw [map_madeFinal_madeFinal, map_madeFinal_madeFinal, joining_map_madeFinal, joining_map_madeFinal,
    joining_map_madeFinal]

theorem madeFinal_of_all {p : Strip → Bool} (all : ∀ r, p r = true) :
    madeFinal p = fun r => if r.state = .opened then { r with state := .final } else r :=
  funext fun r => if_congr (and_iff_left (all r)) rfl rfl

theorem joining_eq_filter {p : Strip → Bool} {P : Strip → Prop} [DecidablePred P] (same : ∀ r, p r = true ↔ P r)
    (l : List Strip) : joining p l = (l.filter (fun r => decide (r.state = .opened ∧ P r))).map Strip.index := by
  refine congrArg (List.map Strip.index) (List.filter_congr fun r _ => ?_)
  rw [Bool.decide_and, Bool.eq_iff_iff.mpr ((same r).trans decide_eq_true_iff.symm)]

/-! ### The end of the canvas (08 R144) -/

/-- 08 R144 step 1: the table with the last strip fixed, the canvas ending at column `hi`. -/
def lastFixed (c : Cvm) (hi : Int) : List Strip :=
  if c.um = none then c.strips.map (fun q => if q.index = ((hi - 1) / 128).toNat then
    { q with width := (hi - (q.uStart : Int)).toNat, last := true } else q)
  else c.strips

theorem markLastStrip_cvm (s : State) : s.markLastStrip.cvm = { s.cvm with strips := lastFixed s.cvm s.blu.frontier } := by
  unfold State.markLastStrip lastFixed
  split
  · next um accepted => rw [if_neg (by rw [accepted]; exact Option.some_ne_none um)]
  · next missing => rw [if_pos missing]; rfl

/-- 08 R144: CVM's record at the end of the canvas at column `hi`, from the table `l` with the last strip fixed: every strip FINAL, those below `hi` in the output queue first, then the others not held, then the held ones. -/
def canvasEnded (c : Cvm) (l : List Strip) (hi : Int) : Cvm := { c with
  strips := l.map (fun q => if q.state = .opened then { q with state := .final } else q)
  outQueue := c.outQueue
    ++ (l.filter (fun q => decide (q.state = .opened ∧ q.isHeld = false ∧ (q.uStart : Int) + q.width ≤ hi))).map Strip.index
    ++ (l.filter (fun q => decide (q.state = .opened ∧ q.isHeld = false ∧ hi < (q.uStart : Int) + q.width))).map Strip.index
    ++ (l.filter (fun q => decide (q.state = .opened ∧ q.isHeld = true))).map Strip.index
  lastCommit := true }

theorem finaliseAll_cvm (s : State) :
    s.finaliseAll.cvm = canvasEnded s.cvm (lastFixed s.cvm s.blu.frontier) s.blu.frontier := by
  have frontier : s.markLastStrip.blu.frontier = s.blu.frontier := congrArg Blu.frontier ((markLastStrip_frame s).blu (by decide))
  show ({ (((s.markLastStrip.finaliseBelow).finalise _).finalise _).cvm with lastCommit := true } : Cvm) = _
  unfold canvasEnded
  rw [State.finaliseBelow, finalise_three_cvm, markLastStrip_cvm, frontier]
  dsimp only
  rw [madeFinal_of_all (fun r => by cases r.isHeld <;> simp),
    joining_eq_filter (P := fun r => r.isHeld = false ∧ (r.uStart : Int) + r.width ≤ s.blu.frontier) (fun r => by simp),
    joining_eq_filter (P := fun r => r.isHeld = false ∧ s.blu.frontier < (r.uStart : Int) + r.width)
      (fun r => by cases r.isHeld <;> simp),
    joining_eq_filter (P := fun r => r.isHeld = true) (fun r => by cases r.isHeld <;> simp)]

theorem canvasEnded_not_opened {c : Cvm} {l : List Strip} {hi : Int} {q : Strip} (h : q ∈ (canvasEnded c l hi).strips) :
    q.state ≠ .opened := by
  obtain ⟨r, _, rfl⟩ := List.mem_map.mp h
  split
  · exact fun e => nomatch e
  · next other => exact other

/-- Of CVM the session's last commit changes what the end of the canvas at the end of its span changes. -/
theorem completeCommit_cvm_of_last (s : State) {kind : CommitKind} (last : kind = .final ∨ kind = .closure) (n : Nat)
    (rest : List Commit) (hi : Int) : (s.completeCommit { kind := kind, key := n } rest hi).cvm
      = canvasEnded s.cvm (lastFixed s.cvm hi) hi := by
  have cvm := (commitKeys_frame s { kind := kind, key := n }).cvm (by decide)
  refine ((beginCommit_frame _).cvm (by decide)).trans ?_
  have moved : (s.commitKeys { kind := kind, key := n }).moveFrontier { kind := kind, key := n } hi
      = ({ s.commitKeys { kind := kind, key := n } with blu.frontier := hi } : State).finaliseAll := by
    rcases last with rfl | rfl <;> rfl
  show ((s.commitKeys { kind := kind, key := n }).moveFrontier { kind := kind, key := n } hi).cvm = _
  rw [moved, finaliseAll_cvm]
  dsimp only
  rw [cvm]

/-- Settles O39: the releases, the end of the canvas, then the next commit. -/
theorem finalCommitCompletes : Obligations.FinalCommitCompletes := by
  intro s run kind n rest r marked hrun hq last writing spanned written hr fixed
  have keys := keyAt_commitKeys_last s last n
  have own : (s.commitKeys { kind := kind, key := n }).swc.keys[n]? = some (releasedKey r) := by
    rw [keys, if_pos (.inl rfl), hr]
    rfl
  obtain ⟨settled, _⟩ := completeCommit_settled s _ rest run.spanHi own
  obtain ⟨frontier, queue, idle, begun⟩ := completeCommit_blu s { kind := kind, key := n } rest run.spanHi
  have cvm := (settle_cvm _).trans (completeCommit_cvm_of_last s last n rest run.spanHi)
  have table : lastFixed s.cvm run.spanHi = marked := fixed.symm
  rw [table] at cvm
  refine ⟨_, releasedKey r, exec_commitComplete hrun hq writing spanned written, ?_⟩
  rw [settled, settle_blu, cvm]
  refine ⟨rfl, fun q => canvasEnded_not_opened, own, rfl, rfl, releasedKey_sameTaking r, frontier, queue, idle,
    fun c more h => (begun c more h).settled, fun l pos hl => ⟨releasedKey l, ?_, rfl, rfl, releasedKey_sameTaking l⟩, rfl, rfl⟩
  rw [keys, if_pos (.inr (by omega)), hl]
  rfl

end Sys2Proof.Proofs
end

section
/-! The completion of a write (10 R165, R167): what is stored and marked, how the writers go on (07 R130, R133, 10 R163, R168), and the settled O40. -/
namespace Sys2Proof.Proofs
open Sys2Proof.Machine

/-! ### The word (10 R165, R167) -/

/-- 10 R167: the write is a merge over a word that reads as uncorrectable. -/
def mergeFailed (s : State) (w : WordWrite) (now : EccOutcome) : Bool :=
  !w.whole && decide (readOutcome (markOf s.ecc w.addr) now = .uncorrectable)

/-- 10 R165, R167: a write stored, with ECC_ERROR for a failed merge, before its writer notes it. -/
def wordStored (s : State) (w : WordWrite) (now : EccOutcome) : State :=
  if mergeFailed s w now then (s.storeWord w true).noteEccError else s.storeWord w false

section
variable {s : State} {w : WordWrite} {now : EccOutcome}

theorem mergeFailed_iff : mergeFailed s w now = true
    ↔ w.whole = false ∧ readOutcome (markOf s.ecc w.addr) now = .uncorrectable := by
  unfold mergeFailed
  rw [Bool.and_eq_true, Bool.not_eq_true', decide_eq_true_iff]

theorem wordStored_of_failed (h : mergeFailed s w now = true) : wordStored s w now = (s.storeWord w true).noteEccError := if_pos h

theorem wordStored_of_good (h : ¬ mergeFailed s w now = true) : wordStored s w now = s.storeWord w false := if_neg h

theorem wordStored_frame (s : State) (w : WordWrite) (now : EccOutcome) : SameOutside [.mem, .ecc, .lku] s (wordStored s w now) :=
  .ite ((storeWord_frame s w true).comp (noteEccError_frame _) (by decide)) ((storeWord_frame s w false).mono (by decide))

theorem wordStored_mem (s : State) (w : WordWrite) (now : EccOutcome) :
    (wordStored s w now).mem = writeBytes s.mem w.addr w.bytes := by
  unfold wordStored
  split <;> rfl

/-- A failed merge leaves the word poisoned and sets ECC_ERROR. -/
theorem wordStored_marks_of_failed (h : mergeFailed s w now = true) :
    markOf (wordStored s w now).ecc w.addr = some .uncorrectable ∧ (wordStored s w now).lku.flags.eccError = true := by
  rw [wordStored_of_failed h]
  exact ⟨(markOf_setMark s.ecc w.addr .uncorrectable w.addr).trans (if_pos rfl), rfl⟩

/-- Any other write clears the mark of its word and sets no flag. -/
theorem wordStored_marks_of_good (canonical : s.MemoryCanonical) (h : ¬ mergeFailed s w now = true) :
    markOf (wordStored s w now).ecc w.addr = none ∧ (wordStored s w now).lku = s.lku := by
  obtain ⟨_, marks⟩ := canonical
  rw [wordStored_of_good h]
  exact ⟨(markOf_clearMark s.ecc marks w.addr w.addr).trans (if_pos rfl), rfl⟩

end

/-! ### The writers -/

section
variable {s : State} {w : WordWrite} (failed : Bool)

/-- 10 R163: the head of the first line buffer is made; an emptied buffer is free again. -/
theorem noteWrite_lineBuffer {b : LineBuffer} {rest : List LineBuffer} {next : List WordWrite}
    (buffers : s.igu.lineBuffers = b :: rest) (writes : b.writes = w :: next) : (s.noteWrite .igu w failed).igu
      = { s.igu with lineBuffers := if next = [] then rest else { b with writes := next } :: rest } := by
  have head : s.igu.lineBuffers.findSome? (fun b => b.writes.head?) = some w := by
    rw [buffers, List.findSome?_cons, writes]
    rfl
  have popped : popLineWrite s.igu.lineBuffers = if next = [] then rest else { b with writes := next } :: rest := by
    rw [buffers]
    unfold popLineWrite
    rw [writes]
    cases next <;> rfl
  unfold State.noteWrite
  dsimp only
  rw [if_pos head, popped]

/-- 10 R163: without a line write the write is one of the prepare pass. -/
theorem noteWrite_prepare (buffers : s.igu.lineBuffers = []) : (s.noteWrite .igu w failed).igu
    = { s.igu with prep := s.igu.prep.map (fun p => { p with written := p.written + 1 }) } := by
  have none : ¬ s.igu.lineBuffers.findSome? (fun b => b.writes.head?) = some w := by
    rw [buffers]
    exact fun h => nomatch h
  unfold State.noteWrite
  exact congrArg State.igu (if_neg none)

/-- 10 R168: a part goes on to its next write: in a created strip the fills come before the pixels. -/
def partNext (p : StripPart) (fills : Nat) : StripPart :=
  if p.created = true ∧ p.fills < fills then { p with fills := p.fills + 1 } else { p with writes := p.writes + 1 }

/-- 07 R130, R133: BLU goes on in its part, and the write counts in the record of its strip. -/
theorem noteWrite_part {run : CommitRun} {p : StripPart} {r : Strip} (hrun : s.blu.run = some run) (part : run.part = some p)
    (strip : s.stripAt p.strip = some r) : s.noteWrite .blu w failed
      = { s with blu.run := some { run with part := some (partNext p (s.fillWrites r.slot).length) } }.updateStrip p.strip
          (fun r => r.written w.holes (w.spoilt || failed)) := by
  unfold State.noteWrite partNext
  dsimp only
  rw [hrun]
  dsimp only
  rw [part]
  dsimp only
  rw [strip]
  simp only [Bool.and_eq_true, decide_eq_true_eq]

theorem stripAt_noteWrite {run : CommitRun} {p : StripPart} {r : Strip} (hrun : s.blu.run = some run)
    (part : run.part = some p) (strip : s.stripAt p.strip = some r) :
    (s.noteWrite .blu w failed).stripAt p.strip = some (r.written w.holes (w.spoilt || failed)) := by
  rw [noteWrite_part failed hrun part strip, stripAt_updateStrip _ _ _ _ (by intro q; rfl), if_pos rfl]
  exact congrArg (Option.map _) strip

end

/-- The fill of a strip rests on the session's configuration alone. -/
theorem fillWrites_congr {s t : State} (swc : t.swc = s.swc) (slot : StripSlot) : t.fillWrites slot = s.fillWrites slot := by
  unfold State.fillWrites State.cfg
  rw [swc]

/-! ### The access completes (10 R162, R165 to R167) -/

/-- A completed write, noted with its writer unless it has been abandoned. -/
def writeDone (s : State) (g : Grant) (w : WordWrite) (now : EccOutcome) : State :=
  if g.live then (wordStored s w now).noteWrite g.access.who w (mergeFailed s w now) else wordStored s w now

section
variable {s : State} {g : Grant} {w : WordWrite}

theorem completeAccess_of_write (write : g.access.write = some w) (now : EccOutcome) :
    s.completeAccess g now = writeDone s g w now := by
  have both : (if mergeFailed s w now then (s.storeWord w (mergeFailed s w now)).noteEccError
      else s.storeWord w (mergeFailed s w now)) = wordStored s w now := by
    unfold wordStored
    cases mergeFailed s w now <;> rfl
  unfold writeDone
  rw [← both]
  unfold State.completeAccess
  rw [write]
  rfl

theorem writeDone_of_live (live : g.live = true) (now : EccOutcome) :
    writeDone s g w now = (wordStored s w now).noteWrite g.access.who w (mergeFailed s w now) := if_pos live

theorem writeDone_of_abandoned (dead : g.live = false) (now : EccOutcome) : writeDone s g w now = wordStored s w now :=
  if_neg (by rw [dead]; decide)

theorem writeDone_frame (s : State) (g : Grant) (w : WordWrite) (now : EccOutcome) :
    SameOutside [.igu, .blu, .cvm] (wordStored s w now) (writeDone s g w now) :=
  .ite (noteWrite_frame _ _ _ _) .rfl'

theorem exec_memoryAccessComplete_of_write (grant : s.grant = some g) (write : g.access.write = some w)
    (within : g.access.addr + 8 ≤ addressedBytes) (now : EccOutcome) :
    exec (.memoryAccessComplete now) s = .next ({ writeDone s g w now with grant := none } : State).arbitrate := by
  show execMemoryAccessComplete now s = _
  unfold execMemoryAccessComplete
  rw [grant, ← completeAccess_of_write write]
  exact if_pos within

end

section
variable {s : State} {g : Grant} {w : WordWrite} {now : EccOutcome}

theorem writeDone_mem (s : State) (g : Grant) (w : WordWrite) (now : EccOutcome) :
    (writeDone s g w now).mem = writeBytes s.mem w.addr w.bytes :=
  ((writeDone_frame s g w now).mem (by decide)).trans (wordStored_mem s w now)

theorem writeDone_marks_of_failed (g : Grant) (h : mergeFailed s w now = true) :
    markOf (writeDone s g w now).ecc w.addr = some .uncorrectable ∧ (writeDone s g w now).lku.flags.eccError = true := by
  have frame := writeDone_frame s g w now
  rw [frame.ecc (by decide), frame.lku (by decide)]
  exact wordStored_marks_of_failed h

theorem writeDone_marks_of_good (canonical : s.MemoryCanonical) (g : Grant) (h : ¬ mergeFailed s w now = true) :
    markOf (writeDone s g w now).ecc w.addr = none ∧ (writeDone s g w now).lku.flags = s.lku.flags := by
  have frame := writeDone_frame s g w now
  obtain ⟨mark, lku⟩ := wordStored_marks_of_good canonical h
  rw [frame.ecc (by decide), frame.lku (by decide)]
  exact ⟨mark, congrArg Lku.flags lku⟩

/-- 07 R130, R133, 10 R168: a live write of BLU goes on in its part and counts in the record of its strip. -/
theorem writeDone_part (w : WordWrite) (now : EccOutcome) (live : g.live = true) (who : g.access.who = .blu)
    {run : CommitRun} {p : StripPart} {r : Strip} (hrun : s.blu.run = some run) (part : run.part = some p)
    (strip : s.stripAt p.strip = some r) : (writeDone s g w now).blu
        = { s.blu with run := some { run with part := some (partNext p (s.fillWrites r.slot).length) } }
      ∧ (writeDone s g w now).stripAt p.strip = some (r.written w.holes (w.spoilt || mergeFailed s w now)) := by
  have kept := wordStored_frame s w now
  have blu : (wordStored s w now).blu = s.blu := kept.blu (by decide)
  have hrun' : (wordStored s w now).blu.run = some run := by rw [blu, hrun]
  have strip' : (wordStored s w now).stripAt p.strip = some r := (stripAt_of_cvm (kept.cvm (by decide)) _).trans strip
  rw [writeDone_of_live live, who]
  refine ⟨?_, stripAt_noteWrite _ hrun' part strip'⟩
  rw [noteWrite_part _ hrun' part strip', fillWrites_congr (kept.swc (by decide)), ← blu]
  rfl

end

/-- Settles O40: the bytes, the mark with the flag, and each writer from the state in which the word is stored. -/
theorem writesComplete : Obligations.WritesComplete := by
  intro s g w o canonical grant write addr within bytes
  have ⟨wf, _⟩ := canonical
  have mem := writeDone_mem s g w o
  have kept := wordStored_frame s w o
  have igu : (wordStored s w o).igu = s.igu := kept.igu (by decide)
  rw [← addr] at within
  refine ⟨_, exec_memoryAccessComplete_of_write grant write within o, ?_⟩
  rw [arbitrate_eq]
  dsimp only
  rw [mem]
  refine ⟨fun k b given => ?_, fun k left => ?_, fun a outside => ?_,
    fun whole => writeDone_marks_of_good canonical g (fun h => ?_),
    fun merge bad => writeDone_marks_of_failed g (mergeFailed_iff.mpr ⟨merge, bad⟩),
    fun merge readable => writeDone_marks_of_good canonical g (fun h => readable (mergeFailed_iff.mp h).2),
    fun dead => ?_, fun live who => ⟨fun b rest next buffers writes => ?_, fun buffers => ?_⟩,
    fun live who run p r hrun part strip => ?_⟩
  · rw [readByte_writeBytes_inside _ _ _ _ wf _ given, Option.getD_some]
  · rw [readByte_writeBytes_inside _ _ _ _ wf _ left, Option.getD_none]
  · exact readByte_writeBytes_outside _ _ _ _ wf (by rwa [bytes])
  · exact absurd (whole.symm.trans (mergeFailed_iff.mp h).1) (by decide)
  · rw [writeDone_of_abandoned dead]
    exact ⟨igu, kept.blu (by decide), kept.cvm (by decide)⟩
  · rw [writeDone_of_live live, who, noteWrite_lineBuffer _ (by rw [igu]; exact buffers) writes, igu]
  · rw [writeDone_of_live live, who, noteWrite_prepare _ (by rw [igu]; exact buffers), igu]
  · obtain ⟨blu, written⟩ := writeDone_part w o live who hrun part strip
    refine ⟨blu, r.damaged || (w.spoilt || mergeFailed s w o), ?_, written⟩
    rw [Bool.or_eq_true, Bool.or_eq_true, mergeFailed_iff]

end Sys2Proof.Proofs
end

section
/-! The ends of a transfer (09 R157, R158, R160): clean with the end of a wait (08 R141), with a memory error, cut off: the settled O44. -/
namespace Sys2Proof.Proofs
open Sys2Proof.Machine

/-! ### The trailer (09 R155) -/

section
variable {s : State} {x : Transfer} {r : Strip}

/-- 09 R155: a trailer already begun keeps its record, one built only now takes the strip record's hole count and flags. -/
theorem trailerRecord_of_strip (strip : s.stripAt x.strip = some r) :
    s.trailerRecord x = if x.trailer = true then x else { x with holes := r.holes, flags := s.stripFlags r } := by
  unfold State.trailerRecord State.refreshed
  rw [strip]

theorem presentTrailer_pins_of_line {status : Nat} {line : List Beat} (built : line = trailerLine x s.opu.number status) :
    (s.presentTrailer x status).pins
      = { s.pins with sopFv := false, sopLv := false, sopLine := line, sopBeat := line.length } := by
  rw [built]
  rfl

theorem exec_transferComplete_of_failed (sending : s.opu.state = .sending) (transfer : s.opu.xfer = some x)
    (strip : s.stripAt x.strip = some r) (ready : s.pins.sopRdy = true) (lines : s.stripLines ≤ x.line)
    (failed : x.errorSeen = true) : exec .transferComplete s = .next (s.transferFailed x r).settle := by
  show execTransferComplete s = _
  unfold execTransferComplete
  rw [sending, transfer]
  dsimp only
  rw [strip]
  dsimp only
  rw [if_pos ⟨ready, lines⟩, if_pos failed]

theorem exec_cutTrailerDone_of_cutting (cutting : s.opu.state = .cutting) (transfer : s.opu.xfer = some x)
    (ready : s.pins.sopRdy = true) :
    exec .cutTrailerDone s = .next ((s.presentTrailer x 2).clearTransfer.setOpuState .idle) := by
  show execCutTrailerDone s = _
  unfold execCutTrailerDone
  rw [cutting, transfer]
  dsimp only
  rw [if_pos ready]

end

/-! ### The wait that a leaving strip ends (08 R141) -/

section
variable {left s : State} {w : CanvasWait} {j : Nat}

theorem endWait_wait (waits : left.cvm.wait = some w) (occupied : w.occupant = j) : (left.endWait j).cvm.wait = none := by
  rw [endWait_of_wait waits occupied, (notifyCanvas_frame (waitOver left w) w true).cvm (by decide)]
  rfl

/-- 07 R132: BLU writes on in the strip waited for. -/
theorem endWait_blu (waits : left.cvm.wait = some w) (occupied : w.occupant = j) :
    (left.endWait j).blu = (left.openPart true).blu := by
  rw [endWait_of_wait waits occupied, (notifyCanvas_frame (waitOver left w) w true).blu (by decide)]
  rfl

/-- 08 R139, R141: the strip waited for is OPEN in its slot. -/
theorem stripAt_endWait (waits : left.cvm.wait = some w) (occupied : w.occupant = j) (absent : left.stripAt w.strip = none) :
    ∃ q, (left.endWait j).stripAt w.strip = some q ∧ q.state = .opened ∧ q.slot = left.slotOfStrip w.strip := by
  have created : (waitOver left w).stripAt w.strip = some (left.freshStrip w.strip) :=
    (stripAt_createStrip absent w.strip).trans (if_pos rfl)
  rw [endWait_of_wait waits occupied, stripAt_notifyCanvas]
  exact ⟨_, created, freshStrip_opened left w.strip⟩

/-- 08 R141: where the strip left with a notice, the CANVAS notice of the end of the wait is the second. -/
theorem endWait_noticedNext {b : NoticeBody} (first : left.lku = (s.notify b).lku) (waits : left.cvm.wait = some w)
    (occupied : w.occupant = j) : s.NoticedNext (left.endWait j)
      (.canvas left.swc.id w.strip w.occupant w.occupantState left.cfg.policy true) := by
  rw [endWait_of_wait waits occupied]
  exact notify_noticedNext (t := waitOver left w) first _

end

theorem slotOfStrip_of_swc {s t : State} (h : t.swc = s.swc) (j : Nat) : t.slotOfStrip j = s.slotOfStrip j := by
  unfold State.slotOfStrip State.cfg
  rw [h]

theorem openPart_blu_of_blu {s t : State} (h : t.blu = s.blu) (created : Bool) :
    (t.openPart created).blu = (s.openPart created).blu := by
  unfold State.openPart
  rw [h]

/-! ### The clean end (09 R157) -/

section
variable (s : State) (x : Transfer) (r : Strip)

theorem transferClean_eq : s.transferClean x r = (stripSent s x r).endWait r.index := rfl

theorem stripSent_frame : SameOutside [.pins, .cvm, .opu, .lku] s (stripSent s x r) :=
  (((((presentTrailer_frame s _ _).comp (removeStrip_frame _ _) (n := [.pins, .cvm]) (by decide)).comp
    (countSent_frame _) (n := [.pins, .cvm]) (by decide)).comp (notifyStrip_frame _ _ _ _ _)
    (n := [.pins, .cvm, .lku]) (by decide)).comp (clearTransfer_frame _)
    (n := [.pins, .cvm, .lku, .opu]) (by decide)).comp (setOpuState_frame _ _) (by decide)

theorem stripSent_opu : (stripSent s x r).opu = { state := .idle, number := 0, xfer := none } := rfl

theorem stripSent_lku :
    (stripSent s x r).lku = (s.notify (.strip x.session r.index .sent r.holes r.damaged s.opu.number)).lku :=
  notify_lku_congr (by rfl) _

theorem stripSent_wait : (stripSent s x r).cvm.wait = s.cvm.wait := by
  rw [stripSent_cvm]
  rfl

/-- A strip sent is in the table no more. -/
theorem stripAt_stripSent (k : Nat) : (stripSent s x r).stripAt k = if k = r.index then none else s.stripAt k := by
  rw [← stripAt_removeStrip s r.index k]
  exact stripAt_of_cvm (stripSent_cvm s x r) k

theorem stripSent_pins : (stripSent s x r).pins = (s.presentTrailer (s.trailerRecord x) 0).pins :=
  (notifyStrip_frame _ x.session r .sent s.opu.number).pins (by decide)

theorem transferClean_opu : (s.transferClean x r).opu = { state := .idle, number := 0, xfer := none } :=
  ((endWait_frame (stripSent s x r) r.index).opu (by decide)).trans (stripSent_opu s x r)

theorem transferClean_pins : (s.transferClean x r).pins = (s.presentTrailer (s.trailerRecord x) 0).pins :=
  ((endWait_frame (stripSent s x r) r.index).pins (by decide)).trans (stripSent_pins s x r)

theorem transferClean_noticed :
    s.Noticed (s.transferClean x r) (.strip x.session r.index .sent r.holes r.damaged s.opu.number) :=
  ((notify_noticed s _).kept (.of_lku (stripSent_lku s x r))).kept (endWait_notices (stripSent s x r) r.index)

/-- 08 R137: what a strip sent leaves in CVM's record besides the table and the wait. -/
theorem transferClean_counted : ∃ strips wait,
    (s.transferClean x r).cvm = { ((s.removeStrip r.index).countSent).cvm with strips := strips, wait := wait } := by
  obtain ⟨strips, wait, cvm⟩ := endWait_cvm (stripSent s x r) r.index
  rw [stripSent_cvm] at cvm
  exact ⟨strips, wait, cvm⟩

theorem transferClean_outQueue : r.index ∉ (s.transferClean x r).cvm.outQueue := by
  obtain ⟨strips, wait, cvm⟩ := transferClean_counted s x r
  rw [cvm]
  exact outQueue_removeStrip s r.index

end

section
variable {s : State} {r : Strip}

theorem transferClean_counts (x : Transfer) (strip : s.stripAt r.index = some r) :
    (s.transferClean x r).cvm.sent = min 65535 (s.cvm.sent + 1)
      ∧ (s.transferClean x r).cvm.damaged = (if r.damaged = true then min 65535 (s.cvm.damaged + 1) else s.cvm.damaged) := by
  obtain ⟨strips, wait, cvm⟩ := transferClean_counted s x r
  rw [cvm]
  refine ⟨rfl, ?_⟩
  unfold State.countSent State.removeStrip
  dsimp only
  rw [strip]
  rfl

theorem stripAt_transferClean_self (x : Transfer) (apart : ∀ w, s.cvm.wait = some w → w.strip ≠ r.index) :
    (s.transferClean x r).stripAt r.index = none := by
  have gone : (stripSent s x r).stripAt r.index = none := (stripAt_stripSent s x r r.index).trans (if_pos rfl)
  rw [← stripSent_wait s x r] at apart
  exact (stripAt_endWait_other apart).trans gone

/-- 08 R141: a wait on another slot stays, and BLU with it. -/
theorem transferClean_of_otherWait (x : Transfer) (other : ∀ w, s.cvm.wait = some w → w.occupant ≠ r.index) :
    (s.transferClean x r).cvm.wait = s.cvm.wait ∧ (s.transferClean x r).blu = s.blu := by
  rw [← stripSent_wait s x r] at other
  rw [transferClean_eq, endWait_of_other other]
  exact ⟨stripSent_wait s x r, (stripSent_frame s x r).blu (by decide)⟩

end

/-- 08 R141: the wait on the slot of the strip sent is over, and its notice follows that of the strip. -/
theorem transferClean_of_wait {s : State} {r : Strip} {w : CanvasWait} (x : Transfer) (waits : s.cvm.wait = some w)
    (occupied : w.occupant = r.index) (absent : s.stripAt w.strip = none) :
    (s.transferClean x r).cvm.wait = none ∧ (s.transferClean x r).blu = (s.openPart true).blu
      ∧ (∃ q, (s.transferClean x r).stripAt w.strip = some q ∧ q.state = .opened ∧ q.slot = s.slotOfStrip w.strip)
      ∧ s.NoticedNext (s.transferClean x r)
        (.canvas s.swc.id w.strip w.occupant w.occupantState s.cfg.policy true) := by
  have waits' : (stripSent s x r).cvm.wait = some w := (stripSent_wait s x r).trans waits
  have gone : (stripSent s x r).stripAt w.strip = none := by rw [stripAt_stripSent, absent, ite_self]
  have swc : (stripSent s x r).swc = s.swc := (stripSent_frame s x r).swc (by decide)
  have blu : (stripSent s x r).blu = s.blu := (stripSent_frame s x r).blu (by decide)
  have opened := stripAt_endWait waits' occupied gone
  have noticed := endWait_noticedNext (stripSent_lku s x r) waits' occupied
  rw [slotOfStrip_of_swc swc] at opened
  rw [State.cfg, swc] at noticed
  exact ⟨endWait_wait waits' occupied, (endWait_blu waits' occupied).trans (openPart_blu_of_blu blu true), opened, noticed⟩

/-! ### The end with a memory error (09 R158) -/

section
variable (s : State) (x : Transfer) (r : Strip)

/-- 09 R158: the strip keeps its place, FINAL with its mark set, and OPU is HALTED; only the notice is still to be queued. -/
def transferHalted : State :=
  (((s.presentTrailer (s.trailerRecord x) 1).updateStrip r.index
    (fun q => { q with state := .final, error := true })).setOpuState .halted).setOutputHalted true

/-- 09 R158: the notice changes the link's record alone. -/
theorem transferFailed_notice : SameOutside [.lku] (transferHalted s x r) (s.transferFailed x r) :=
  notifyStrip_frame _ _ _ _ _

theorem transferFailed_opu : (s.transferFailed x r).opu = { s.opu with state := .halted } :=
  (transferFailed_notice s x r).opu (by decide)

theorem transferFailed_pins : (s.transferFailed x r).pins = (s.presentTrailer (s.trailerRecord x) 1).pins :=
  (transferFailed_notice s x r).pins (by decide)

theorem transferFailed_cvm : (s.transferFailed x r).cvm
    = (s.updateStrip r.index (fun q => { q with state := .final, error := true })).cvm :=
  (transferFailed_notice s x r).cvm (by decide)

/-- 09 R158: the halt changes no part of CVM's record but the table. -/
theorem transferFailed_stays : (s.transferFailed x r).cvm.outQueue = s.cvm.outQueue
    ∧ (s.transferFailed x r).cvm.sent = s.cvm.sent ∧ (s.transferFailed x r).cvm.wait = s.cvm.wait := by
  rw [transferFailed_cvm]
  exact ⟨rfl, rfl, rfl⟩

theorem transferFailed_conds : (s.transferFailed x r).lku.conds = { s.lku.conds with outputHalted := true } := by
  obtain ⟨_, _, _, conds, _⟩ := notify_requests (transferHalted s x r)
    (.strip x.session r.index .memoryError r.holes r.damaged s.opu.number)
  exact conds

/-- The condition set before it changes neither the notices queued nor their next number. -/
theorem transferFailed_noticed :
    s.Noticed (s.transferFailed x r) (.strip x.session r.index .memoryError r.holes r.damaged s.opu.number) :=
  notify_noticed (transferHalted s x r) _

end

theorem stripAt_transferFailed {s : State} {r : Strip} (x : Transfer) (strip : s.stripAt r.index = some r) :
    (s.transferFailed x r).stripAt r.index = some { r with state := .final, error := true } := by
  have changed := stripAt_updateStrip s r.index r.index (fun q => { q with state := .final, error := true }) (fun _ => rfl)
  rw [if_pos rfl, strip] at changed
  exact (stripAt_of_cvm (transferFailed_cvm s x r) r.index).trans changed

/-- Settles O44: TRANSFER_COMPLETE is the clean or the failed end, whose trailer the transfer and the strip record give; the command's end adds notices and changes no other part named. -/
theorem transfersEnd : Obligations.TransfersEnd := by
  refine ⟨fun s x r line sending transfer strip ready lines built => ?_,
    fun s x cutting transfer ready => exec_cutTrailerDone_of_cutting cutting transfer ready⟩
  have index := stripAt_index strip
  have held : s.stripAt r.index = some r := by rw [index, strip]
  rw [← trailerRecord_of_strip strip] at built
  rw [← index]
  refine ⟨fun clean apart => ?_, fun failed => ?_⟩
  · obtain ⟨sent, damaged⟩ := transferClean_counts x held
    refine ⟨_, exec_transferComplete_of_clean sending transfer strip ready lines clean,
      (stripAt_of_cvm (settle_cvm _) _).trans (stripAt_transferClean_self x apart), ?_,
      (congrArg Cvm.sent (settle_cvm _)).trans sent, (congrArg Cvm.damaged (settle_cvm _)).trans damaged,
      (settle_opu _).trans (transferClean_opu s x r), ?_,
      (transferClean_noticed s x r).kept (settle_notices _), fun other => ?_, fun w waits occupied absent => ?_⟩
    · rw [settle_cvm]
      exact transferClean_outQueue s x r
    · rw [settle_pins, transferClean_pins]
      exact presentTrailer_pins_of_line (built 0)
    · rw [settle_cvm, settle_blu]
      exact transferClean_of_otherWait x other
    · obtain ⟨wait, blu, opened, noticed⟩ := transferClean_of_wait x waits occupied absent
      obtain ⟨second, _⟩ := noticed.kept (settle_notices _)
      rw [stripAt_of_cvm (settle_cvm _), settle_cvm, settle_blu, blu]
      exact ⟨wait, rfl, opened, fun run running => ⟨_, congrArg (Option.map _) running, rfl⟩, second⟩
  · obtain ⟨outQueue, sent, wait⟩ := transferFailed_stays s x r
    have blu : (s.transferFailed x r).blu = s.blu := (transferFailed_frame s x r).blu (by decide)
    refine ⟨_, exec_transferComplete_of_failed sending transfer strip ready lines failed,
      (stripAt_of_cvm (settle_cvm _) _).trans (stripAt_transferFailed x held),
      (settle_opu _).trans (transferFailed_opu s x r), (settle_conds _).trans (transferFailed_conds s x r),
      (congrArg Cvm.outQueue (settle_cvm _)).trans outQueue, (congrArg Cvm.sent (settle_cvm _)).trans sent,
      (congrArg Cvm.wait (settle_cvm _)).trans wait, (settle_blu _).trans blu, ?_,
      (transferFailed_noticed s x r).kept (settle_notices _)⟩
    rw [settle_pins, transferFailed_pins]
    exact presentTrailer_pins_of_line (built 1)

end Sys2Proof.Proofs
end

section
/-! A step (notes/assumptions/1.md, notes/assumptions/22.md) and the beat's time of an empty queue (09 R155, R156): the settled O1. -/
namespace Sys2Proof.Proofs
open Sys2Proof.Machine

section
variable {s : State}

theorem step_of_command {c : Instr} {rest : List Instr} (queue : s.pending = c :: rest) :
    step s = exec c { s with pending := rest } := by
  unfold step
  rw [queue]

theorem step_of_empty (empty : s.pending = []) : step s = .next s.tick := by
  unfold step
  rw [empty]

/-! ### One beat's time (09 R155, R156) -/

/-- 09 R156: while SOP_RDY is low nothing is presented. -/
theorem tick_of_notReady (low : s.pins.sopRdy = false) : s.tick = s := if_neg (by rw [low]; decide)

theorem tick_of_line (ready : s.pins.sopRdy = true) (line : s.pins.sopLv = true) : s.tick = s.presentBeat := by
  unfold State.tick
  rw [if_pos ready, if_pos line]

/-- 09 R153: OPU at rest presents nothing. -/
theorem tick_of_rest (between : s.pins.sopLv = false) (rest : s.opu.state = .idle ∨ s.opu.state = .halted) : s.tick = s := by
  unfold State.tick
  rw [between, if_neg Bool.false_ne_true]
  rcases rest with e | e <;> rw [e] <;> exact ite_self s

/-- 09 R155: between the lines of a transfer with lines left nothing is presented. -/
theorem tick_of_linesLeft {x : Transfer} (between : s.pins.sopLv = false) (sending : s.opu.state = .sending)
    (transfer : s.opu.xfer = some x) (left : x.line < s.stripLines) : s.tick = s := by
  unfold State.tick
  rw [between, if_neg Bool.false_ne_true, sending, transfer]
  dsimp only
  rw [if_neg (Nat.not_le.mpr left)]
  exact ite_self s

/-- 09 R155: after the last line the trailer begins. -/
theorem tick_of_linesSent {x : Transfer} (ready : s.pins.sopRdy = true) (between : s.pins.sopLv = false)
    (sending : s.opu.state = .sending) (transfer : s.opu.xfer = some x) (sent : s.stripLines ≤ x.line) :
    s.tick = s.beginTrailer (s.refreshed x) (if x.errorSeen then 1 else 0) := by
  unfold State.tick
  rw [if_pos ready, between, if_neg Bool.false_ne_true, sending, transfer]
  exact if_pos sent

/-- 09 R160: after a cut the ABORTED trailer begins. -/
theorem tick_of_cut {x : Transfer} (ready : s.pins.sopRdy = true) (between : s.pins.sopLv = false)
    (cutting : s.opu.state = .cutting) (transfer : s.opu.xfer = some x) : s.tick = s.beginTrailer x 2 := by
  unfold State.tick
  rw [if_pos ready, between, if_neg Bool.false_ne_true, cutting, transfer]

/-! ### A beat of the line in progress (09 R155) -/

theorem presentBeat_of_more (more : s.pins.sopBeat + 1 < s.pins.sopLine.length) :
    s.presentBeat = { s with pins.sopBeat := s.pins.sopBeat + 1 } := if_pos more

/-- 09 R155: SOP_LV falls with the last beat of a line. -/
theorem presentBeat_of_last (last : s.pins.sopLine.length ≤ s.pins.sopBeat + 1)
    (line : ∀ x, s.opu.xfer = some x → x.trailer = false) :
    s.presentBeat = { s with pins.sopBeat := s.pins.sopLine.length, pins.sopLv := false } := by
  have noTrailer : s.trailerBegun = false := by
    unfold State.trailerBegun
    cases transfer : s.opu.xfer with
    | none => rfl
    | some x => exact line x transfer
  unfold State.presentBeat
  rw [if_neg (Nat.not_lt.mpr last), noTrailer, if_neg Bool.false_ne_true]

/-- 09 R155: the last beat of a trailer is left to the command that ends the transfer. -/
theorem presentBeat_of_trailer {x : Transfer} (last : s.pins.sopLine.length ≤ s.pins.sopBeat + 1)
    (transfer : s.opu.xfer = some x) (trailer : x.trailer = true) : s.presentBeat = s := by
  have begun : s.trailerBegun = true := by
    unfold State.trailerBegun
    rw [transfer]
    exact trailer
  unfold State.presentBeat
  rw [if_neg (Nat.not_lt.mpr last), if_pos begun]

end

/-- Settles O1: a step is the front command's execution, or a tick, which idles as `tick_of_notReady` and `tick_of_rest` say. -/
theorem stepRunsFront : Obligations.StepRunsFront := by
  refine ⟨fun c rest s queue => step_of_command queue, fun s empty => step_of_empty empty, fun s empty low => ?_,
    fun s empty between rest => ?_⟩
  · rw [step_of_empty empty, tick_of_notReady low]
  · rw [step_of_empty empty, tick_of_rest between rest]

end Sys2Proof.Proofs
end

section
/-! The levels of the strip output port (09 R153, R154, R160): a transfer cut off, the end of a halt and the resets keep the levels with the state of OPU, as does every other command: the settled O8. -/
namespace Sys2Proof.Proofs
open Sys2Proof.Machine

/-! ### The levels are kept -/

/-- From `s` to `t` the levels of the port are kept. -/
def KeepsPort (s t : State) : Prop := s.PortLevels → t.PortLevels

theorem KeepsPort.refl (s : State) : KeepsPort s s := id

theorem KeepsPort.trans {s t u : State} (h : KeepsPort s t) (k : KeepsPort t u) : KeepsPort s u := k ∘ h

/-- Only the pins and the state of OPU matter. -/
theorem KeepsPort.of_same {s t : State} (pins : t.pins = s.pins) (state : t.opu.state = s.opu.state) : KeepsPort s t := fun h => by
  unfold State.PortLevels
  rwa [pins, state]

theorem KeepsPort.of_frame {l : List Block} {s t : State} (f : SameOutside l s t) (pins : Block.pins ∉ l)
    (opu : Block.opu ∉ l) : KeepsPort s t := .of_same (f.pins pins) (congrArg Opu.state (f.opu opu))

theorem answer_keepsPort (s : State) (b : ReplyBody) : KeepsPort s (s.answer b) :=
  .of_frame (answer_frame s b) (by decide) (by decide)

theorem KeepsPort.answered {s t : State} (h : KeepsPort s t) (b : ReplyBody) : KeepsPort s (t.answer b) :=
  h.trans (answer_keepsPort t b)

theorem KeepsPort.settled {s t : State} (h : KeepsPort s t) : KeepsPort s t.settle := h.trans (settle_kept t).ports

/-- The SESSION notice and the answer that end an abort or a release. -/
theorem KeepsPort.noticed {s t : State} (h : KeepsPort s t) (before after : SessionState) (b : ReplyBody) :
    KeepsPort s ((t.notifySession before after).answer b) :=
  (h.trans (.of_frame (notifySession_frame t before after) (by decide) (by decide))).answered b

/-! ### A transfer cut off and the end of a halt (09 R160) -/

/-- 09 R160: a transfer cut off ends its line at the beat reached, and OPU is CUTTING with SOP_FV still high. -/
theorem cutTransfer_keepsPort (s : State) : KeepsPort s s.cutTransfer := by
  cases e : s.opu.state with
  | sending =>
    rintro ⟨level, _, beat⟩
    obtain ⟨cutting, _, pins, _⟩ := cutTransfer_of_sending e
    unfold State.PortLevels
    rw [cutting, pins]
    refine ⟨iff_of_true (level.mpr (.inl e)) (.inr rfl), fun _ => rfl, ?_⟩
    rw [List.length_take, Nat.min_eq_left beat]
  | cutting =>
    rw [cutTransfer_of_cutting e]
    exact .refl s
  | idle =>
    rw [cutTransfer_of_rest (.inl e)]
    exact .of_same rfl rfl
  | halted =>
    rw [cutTransfer_of_rest (.inr e)]
    exact .of_same rfl rfl

theorem abandon_keepsPort (s : State) : KeepsPort s s.abandon := (cutTransfer_keepsPort s).trans (.of_same rfl rfl)

/-- 09 R160: ENGINE.RESET leaves OPU as it was or takes it from HALTED to IDLE. -/
theorem afterEngineReset_keepsPort {s t : State} (pins : t.pins = s.pins)
    (state : t.opu.state = s.opu.state.afterEngineReset) : KeepsPort s t := by
  cases e : s.opu.state with
  | halted =>
    rw [e] at state
    exact ports_rest e state pins
  | idle | sending | cutting =>
    rw [e] at state
    exact .of_same pins (state.trans e.symm)

theorem engineClears_keepsPort (s : State) : KeepsPort s s.engineClears := by
  rw [engineClears_eq]
  exact (cutTransfer_keepsPort s).trans (afterEngineReset_keepsPort rfl rfl)

/-- 09 R153: after pin reset OPU is IDLE and both levels are low. -/
theorem execPinReset_ports (s : State) : LeadsTo (execPinReset s) State.PortLevels :=
  .next (KeepsPort.of_frame (load_frame _) (by decide) (by decide) (ports_low (.inl rfl) rfl rfl (Nat.le_refl _)))

/-! ### The requests -/

theorem sessionArm_keepsPort (s : State) (body : List Byte) : KeepsPort s (s.sessionArm body) := by
  rcases sessionArm_cases s body with e | ⟨b, e⟩ | ⟨c, e⟩ <;> rw [e]
  · exact .refl s
  · exact answer_keepsPort s b
  · exact .of_same rfl rfl

theorem armed_keepsPort (s : State) (c : SessionConfig) : KeepsPort s (s.armed c) := by
  unfold State.armed
  refine KeepsPort.answered (KeepsPort.trans ?_ (.of_frame (enterState_frame _ _) (by decide) (by decide))) _
  exact .of_same rfl rfl

theorem columnMapBuilt_keepsPort (s : State) : KeepsPort s s.columnMapBuilt := by
  rcases columnMapBuilt_cases s with e | ⟨c, e⟩ <;> rw [e]
  · exact .refl s
  · exact armed_keepsPort s c

theorem start_keepsPort (s : State) : KeepsPort s s.start := by
  unfold State.start
  refine KeepsPort.trans ?_ (.of_frame (enterState_frame _ _) (by decide) (by decide))
  exact .of_same rfl rfl

theorem sessionStart_keepsPort (s : State) : KeepsPort s s.sessionStart := by
  unfold State.sessionStart
  split
  · exact (start_keepsPort s).answered _
  · exact answer_keepsPort s _

theorem sessionStop_keepsPort (s : State) : KeepsPort s s.sessionStop := by
  unfold State.sessionStop
  split
  · exact (KeepsPort.answered (endSweep_kept s .userStop).ports _).settled
  · exact answer_keepsPort s _

theorem sessionAbort_keepsPort (s : State) : KeepsPort s s.sessionAbort := by
  unfold State.sessionAbort
  split
  · exact answer_keepsPort s _
  · exact (abandon_keepsPort s).noticed _ _ _

theorem sessionRelease_keepsPort (s : State) : KeepsPort s s.sessionRelease := by
  unfold State.sessionRelease
  split
  · exact KeepsPort.noticed (t := s.release) (.of_same rfl rfl) _ _ _
  · exact answer_keepsPort s _

theorem gyroPut_keepsPort (s : State) (body : List Byte) : KeepsPort s (s.gyroPut body) := by
  obtain ⟨g, b, e⟩ := gyroPut_cases s body
  rw [e]
  exact KeepsPort.answered (t := { s with tku.gyro := g }) (.of_same rfl rfl) b

/-- 09 R159: OUTPUT.RESUME takes OPU from HALTED to IDLE or leaves it. -/
theorem outputResume_keepsPort (s : State) (action : Option ResumeAction) : KeepsPort s (s.outputResume action) := by
  unfold State.outputResume
  split
  · exact answer_keepsPort s _
  · split
    · next halted =>
      split
      · exact (KeepsPort.answered (endHalt_kept s halted).ports _).settled
      · split
        · exact (KeepsPort.answered (retryStrip_kept s _ halted).ports _).settled
        · exact (KeepsPort.answered (skipStrip_kept s _ halted).ports _).settled
    · exact answer_keepsPort s _

/-- 09 R159: a row of OUTPUT.RESUME leaves the action of the other row to it. -/
theorem resumeRow_keepsPort (s : State) (otherRow : Prop) [Decidable otherRow] (action : Option ResumeAction) :
    KeepsPort s (if otherRow then s else s.outputResume action) := by
  split
  · exact .refl s
  · exact outputResume_keepsPort s action

theorem engineReset_keepsPort (s : State) :
    KeepsPort s (if s.psc.burn.isSome then s.answerCode .busy else s.engineClears.answerCode .ok) := by
  split
  · exact answer_keepsPort s _
  · exact (engineClears_keepsPort s).answered _

/-! ### The level of LK_SEL_N (11 R170) -/

theorem lkSelected_keepsPort (s : State) (selected : Bool) (tx : Outbound) :
    KeepsPort s { s with pins.lkSelected := selected, lku.tx := tx } :=
  KeepsPort.trans (t := { s with pins.lkSelected := selected }) (kept_pins s _ rfl rfl id).ports (.of_same rfl rfl)

theorem execLinkTransactionStart_keepsPort (s : State) : LeadsTo (execLinkTransactionStart s) (KeepsPort s) := by
  unfold execLinkTransactionStart
  split
  · exact .next (.refl s)
  · exact .next (lkSelected_keepsPort s true _)

theorem execLinkTransactionEnd_keepsPort (tail : List Byte) (s : State) :
    LeadsTo (execLinkTransactionEnd tail s) (KeepsPort s) := by
  have cut : SameOutside [.lku] s (s.receive tail).cutInbound :=
    (receive_frame s tail).comp (cutInbound_frame _) (by decide)
  unfold execLinkTransactionEnd
  split
  · exact .next ((KeepsPort.of_frame cut (by decide) (by decide)).trans (lkSelected_keepsPort _ false .undriven))
  · exact .next (.refl s)

/-! ### Every command -/

theorem execute_keepsPort {s : State} {type : Byte} {handle : List Byte → State} (h : ∀ body, KeepsPort s (handle body)) :
    LeadsTo (s.execute type handle) (KeepsPort s) := execute_leadsTo (KeepsPort.refl s) h

theorem executeFieldless_keepsPort {s t : State} {type : Byte} (h : KeepsPort s t) :
    LeadsTo (s.execute type (fun body => s.withoutFields body t)) (KeepsPort s) := by
  refine execute_keepsPort (fun body => ?_)
  rcases withoutFields_cases s t body with e | ⟨b, e⟩ <;> rw [e]
  · exact h
  · exact answer_keepsPort s b

/-- The units' commands keep the levels as their shared operations do, the commands outside the pins and OPU by their frame; the others are the requests above, the link's transactions and pin reset. -/
theorem exec_keepsPort (c : Instr) (s : State) : LeadsTo (exec c s) (KeepsPort s) := by
  by_cases unit : unitCommand c = true
  · exact (exec_kept unit s).mono (fun _ k => k.ports)
  by_cases outside : Block.igu ∉ touches c ∧ Block.tku ∉ touches c ∧ Block.pins ∉ touches c ∧ Block.opu ∉ touches c
  · obtain ⟨igu, tku, pins, opu⟩ := outside
    exact (exec_outside igu tku s).mono (fun _ f => .of_frame f pins opu)
  cases c with
  | linkTransactionStart => exact execLinkTransactionStart_keepsPort s
  | linkTransactionEnd tail => exact execLinkTransactionEnd_keepsPort tail s
  | sessionArm => exact execute_keepsPort (sessionArm_keepsPort s)
  | columnMapBuilt => exact execute_keepsPort (fun _ => columnMapBuilt_keepsPort s)
  | sessionStart => exact executeFieldless_keepsPort (sessionStart_keepsPort s)
  | sessionStop => exact executeFieldless_keepsPort (sessionStop_keepsPort s)
  | sessionAbort => exact executeFieldless_keepsPort (sessionAbort_keepsPort s)
  | sessionRelease => exact executeFieldless_keepsPort (sessionRelease_keepsPort s)
  | gyroPut => exact execute_keepsPort (gyroPut_keepsPort s)
  | outputResumeRetry => exact execute_keepsPort (fun body => resumeRow_keepsPort s (resumeBody body = some .skip) _)
  | outputResumeSkip => exact execute_keepsPort (fun body => resumeRow_keepsPort s (resumeBody body = some .retry) _)
  | engineReset => exact executeFieldless_keepsPort (engineReset_keepsPort s)
  | pinReset => exact (execPinReset_ports s).mono (fun _ levels _ => levels)
  | _ => simp [unitCommand, touches] at unit outside

/-- Settles O8: a step is a command at the front of the queue or a tick of the strip output port. -/
theorem portLevelsKept : Obligations.PortLevelsKept := by
  intro s t levels run
  unfold step at run
  split at run
  · cases run
    exact tick_ports s levels
  · next c rest _ => exact exec_keepsPort c { s with pending := rest } t run levels

end Sys2Proof.Proofs
end

section
/-! The completion of a read (10 R165, R166): what the word's mark and ECC_ERROR become and how the readers note the word (09 R158), and the settled O41. -/
namespace Sys2Proof.Proofs
open Sys2Proof.Machine

/-! ### The mark of the word (10 R165) -/

/-- A read changes the mark of no word but its own. -/
theorem markOf_markAfterRead_other (ecc : List (Nat × WordMark)) {w u : Nat} (other : u ≠ w) (out : EccOutcome) :
    markOf (markAfterRead ecc w out) u = markOf ecc u := by
  cases out with
  | clean => rfl
  | singleBit | uncorrectable => exact (markOf_setMark ecc w _ u).trans (if_neg other)

theorem markOf_markAfterRead_uncorrectable (ecc : List (Nat × WordMark)) (w : Nat) :
    markOf (markAfterRead ecc w .uncorrectable) w = some .uncorrectable := (markOf_setMark ecc w _ w).trans (if_pos rfl)

theorem markOf_markAfterRead_singleBit (ecc : List (Nat × WordMark)) (w : Nat) :
    markOf (markAfterRead ecc w .singleBit) w = some .singleBit := (markOf_setMark ecc w _ w).trans (if_pos rfl)

/-! ### The readers (10 R166) -/

/-- 10 R166: the read in progress gives an uncorrectable word. -/
def readFailed (s : State) (g : Grant) (now : EccOutcome) : Bool :=
  decide (readOutcome (markOf s.ecc g.access.addr) now = .uncorrectable)

/-- 11 R179: an uncorrectable read sets ECC_ERROR. -/
def lkuAfterRead (l : Lku) (failed : Bool) : Lku := if failed then { l with flags.eccError := true } else l

/-- 10 R166: a completed read noted with its reader, unless the work it served has been abandoned. -/
def readNoted (s : State) (g : Grant) (now : EccOutcome) : State :=
  if g.live then s.noteRead g.access.who g.access.addr (readFailed s g now) else s

/-- The selection in hand is the first of the list. -/
theorem noteSelection_eq (w : Nat) (failed : Bool) : noteSelection w failed = fun selections =>
    match selections with
    | [] => []
    | sel :: rest => { sel with rd := sel.rd.note w failed } :: rest := by
  funext selections
  cases selections <;> rfl

/-- 09 R158: for OPU a failed read sets the error-seen mark. -/
theorem noteRead_opu {s : State} {x : Transfer} (transfer : s.opu.xfer = some x) (w : Nat) (failed : Bool) :
    s.noteRead .opu w failed
      = { s with opu.xfer := some { x with rd := x.rd.note w failed, errorSeen := x.errorSeen || failed } } := by
  unfold State.noteRead
  dsimp only
  rw [transfer]
  rfl

section
variable {s : State} {g : Grant} {now : EccOutcome}

theorem readFailed_iff : readFailed s g now = true ↔ readOutcome (markOf s.ecc g.access.addr) now = .uncorrectable := decide_eq_true_iff

theorem readNoted_of_live (live : g.live = true) :
    readNoted s g now = s.noteRead g.access.who g.access.addr (readFailed s g now) := if_pos live

theorem readNoted_of_abandoned (dead : g.live = false) : readNoted s g now = s := if_neg (by rw [dead]; decide)

theorem readNoted_frame (s : State) (g : Grant) (now : EccOutcome) :
    SameOutside [.igu, .tku, .smu, .blu, .opu] s (readNoted s g now) := .ite (noteRead_frame _ _ _ _) .rfl'

/-! ### The access completes (10 R162, R165) -/

/-- No reader's note looks at the marks or at the link unit. -/
theorem noteRead_of_marks (s : State) (ecc : List (Nat × WordMark)) (lku : Lku) (who : Requester) (w : Nat) (failed : Bool) :
    ({ s with ecc := ecc, lku := lku } : State).noteRead who w failed
      = { (s.noteRead who w failed) with ecc := ecc, lku := lku } := by
  cases who <;> rfl

/-- 10 R165, R166: a read changes the word's mark and the flag, and its reader notes it. -/
theorem completeAccess_of_read (read : g.access.write = none) (now : EccOutcome) : s.completeAccess g now
    = { readNoted s g now with
        ecc := markAfterRead s.ecc g.access.addr (readOutcome (markOf s.ecc g.access.addr) now)
        lku := lkuAfterRead s.lku (readFailed s g now) } := by
  have marked (ecc : List (Nat × WordMark)) : (if readFailed s g now then ({ s with ecc := ecc } : State).noteEccError
      else { s with ecc := ecc }) = { s with ecc := ecc, lku := lkuAfterRead s.lku (readFailed s g now) } := by
    cases readFailed s g now <;> rfl
  unfold State.completeAccess readNoted
  rw [read]
  dsimp only
  rw [← readFailed, marked, noteRead_of_marks]
  split <;> rfl

theorem exec_memoryAccessComplete_of_read (grant : s.grant = some g) (read : g.access.write = none)
    (within : g.access.addr + 8 ≤ addressedBytes) (now : EccOutcome) : ∃ later,
    exec (.memoryAccessComplete now) s = .next { readNoted s g now with
      grant := later
      ecc := markAfterRead s.ecc g.access.addr (readOutcome (markOf s.ecc g.access.addr) now)
      lku := lkuAfterRead s.lku (readFailed s g now) } := by
  refine ⟨({ s.completeAccess g now with grant := none } : State).arbitrate.grant, ?_⟩
  show execMemoryAccessComplete now s = _
  unfold execMemoryAccessComplete
  rw [grant]
  dsimp only
  rw [if_pos within, arbitrate_eq, completeAccess_of_read read]

/-- 10 R161: an access that reaches beyond the addressed areas faults. -/
theorem exec_memoryAccessComplete_of_beyond (grant : s.grant = some g) (beyond : addressedBytes < g.access.addr + 8)
    (now : EccOutcome) : exec (.memoryAccessComplete now) s = .fault .noSuchAddress := by
  show execMemoryAccessComplete now s = _
  unfold execMemoryAccessComplete
  rw [grant]
  exact if_neg (Nat.not_le.mpr beyond)

end

/-- The statement's note of a word is the model's. -/
theorem note_eq {note : ReadSet → ReadSet} {bad : Prop} {a : Nat} {failed : Bool} (isBad : failed = true ↔ bad)
    (noted : ∀ rd : ReadSet, (bad → note rd = { done := rd.done ++ [a], failed := rd.failed ++ [a] })
      ∧ (¬ bad → note rd = { rd with done := rd.done ++ [a] })) : note = fun rd => rd.note a failed := by
  funext rd
  obtain ⟨ofBad, ofGood⟩ := noted rd
  cases failed with
  | true => exact ofBad (isBad.mp rfl)
  | false => exact ofGood (fun h => absurd (isBad.mpr h) (by decide))

/-- Settles O41: the marks by the outcome of the read, the flag by its failure, and each reader's record by its note. -/
theorem readsComplete : Obligations.ReadsComplete := by
  refine ⟨?_, fun s g o grant beyond => exec_memoryAccessComplete_of_beyond grant beyond o⟩
  rintro s g o _ bad note grant read rfl within isBad noted
  have failed : readFailed s g o = true ↔ bad := readFailed_iff.trans isBad.symm
  obtain rfl := note_eq failed noted
  obtain ⟨later, run⟩ := exec_memoryAccessComplete_of_read grant read within o
  refine ⟨_, run, (readNoted_frame s g o).mem (by decide), fun u other => markOf_markAfterRead_other _ other _,
    fun h => ?_, fun h => ?_, fun h => ?_, fun h => if_pos (failed.mpr h), fun h => if_neg (mt failed.mp h),
    fun dead => ?_, fun live => ?_⟩
  · dsimp only
    rw [isBad.mp h, markOf_markAfterRead_uncorrectable]
  · dsimp only
    rw [h, markOf_markAfterRead_singleBit]
  · dsimp only
    rw [h]
    rfl
  · rw [readNoted_of_abandoned dead]
  · rw [readNoted_of_live live]
    refine ⟨fun who => ?_, fun who => ?_, fun who => ?_, fun who => ?_, fun who x transfer => ?_⟩ <;> rw [who]
    · rfl
    · unfold State.noteRead
      rw [noteSelection_eq] <;> rfl
    · rfl
    · rfl
    · refine ⟨x.errorSeen || readFailed s g o, ?_, ?_⟩
      · rw [Bool.or_eq_true, failed]
      · rw [noteRead_opu transfer]

end Sys2Proof.Proofs
end

section
/-! The start of a transfer (09 R154) and its lines (09 R155, R156, 10 R164): the settled O42 and O43. -/
namespace Sys2Proof.Proofs
open Sys2Proof.Machine

/-! ### The header line (09 R154) -/

section
variable {s : State} {r : Strip} {j : Nat} {rest : List Nat}

/-- 09 R154: the FINAL head of the output queue with its mark clear may start. -/
theorem readyHead_of_final (queue : s.cvm.outQueue = j :: rest) (strip : s.stripAt j = some r) (final : r.state = .final)
    (clear : r.error = false) : s.readyHead = some r := by
  unfold State.readyHead
  rw [queue]
  dsimp only
  rw [strip]
  exact Option.filter_some_pos (decide_eq_true ⟨final, clear⟩)

theorem exec_transferStart_of_head (head : s.readyHead = some r) (idle : s.opu.state = .idle) (ready : s.pins.sopRdy = true) :
    exec .transferStart s = .next (s.startTransfer r).settle := by
  show execTransferStart s = _
  unfold execTransferStart
  rw [head]
  exact if_pos ⟨idle, ready⟩

/-- 09 R154: the strip is SENDING. -/
theorem stripAt_startTransfer (strip : s.stripAt r.index = some r) :
    (s.startTransfer r).stripAt r.index = some { r with state := .sending } := by
  have changed := stripAt_updateStrip s r.index r.index (fun q => { q with state := .sending }) (fun _ => rfl)
  rw [if_pos rfl, strip] at changed
  exact changed

end

/-- Settles O42: the command is `startTransfer`, and its end changes neither OPU nor the pins nor CVM. -/
theorem transferStarts : Obligations.TransferStarts := by
  intro s r j rest idle ready queue strip final clear
  obtain rfl := stripAt_index strip
  have run := exec_transferStart_of_head (readyHead_of_final queue strip final clear) idle ready
  exact ⟨_, _, run, congrArg Opu.state (settle_opu _), congrArg Opu.number (settle_opu _),
    congrArg Opu.xfer (settle_opu _), rfl, rfl, rfl, rfl, settle_pins _,
    ⟨_, (stripAt_of_cvm (settle_cvm _) _).trans (stripAt_startTransfer strip), rfl⟩,
    (congrArg Cvm.outQueue (settle_cvm _)).trans rfl⟩

/-! ### The lines between header and trailer (09 R155, 10 R164) -/

section
variable {s : State} {x : Transfer} {r : Strip}

/-- 09 R155: the line after the last one begun begins, and the transfer goes on to the one after it. -/
def nextLineBegun (s : State) (x : Transfer) (r : Strip) : State :=
  ({ s with opu.xfer := some { x with line := x.line + 1, rd := {} } } : State).presentLine
    (s.stripLine r x.rd.failed (x.line + 1))

theorem exec_sopLineStart_of_read (sending : s.opu.state = .sending) (transfer : s.opu.xfer = some x)
    (strip : s.stripAt x.strip = some r) (ready : s.pins.sopRdy = true) (left : x.line < s.stripLines)
    (read : s.nextLineRead = none) : exec .sopLineStart s = .next (nextLineBegun s x r).settle := by
  show execSopLineStart s = _
  unfold execSopLineStart
  rw [sending, transfer]
  dsimp only
  rw [strip]
  exact if_pos ⟨ready, left, read⟩

/-- 09 R156, 10 R164: no line begins while SOP_RDY is low or its reads are due. -/
theorem exec_sopLineStart_of_waiting (waits : s.pins.sopRdy = false ∨ s.nextLineRead ≠ none) :
    exec .sopLineStart s = .next s := by
  show execSopLineStart s = _
  unfold execSopLineStart
  split
  · split
    · rfl
    · refine if_neg (fun ⟨ready, _, read⟩ => waits.elim (fun low => ?_) (fun due => due read))
      rw [low] at ready
      cases ready
  · rfl

end

/-- Settles O43: the lines by the two lemmas above, the beats and the trailers by what one beat's time brings about. -/
theorem linesPresented : Obligations.LinesPresented := by
  refine ⟨fun s x r sending transfer strip ready left read => ?_, fun s waits => exec_sopLineStart_of_waiting waits,
    fun _ _ => rfl, fun s empty ready line => ?_, fun s x empty ready between transfer => ?_, fun s empty low => ?_⟩
  · exact ⟨_, exec_sopLineStart_of_read sending transfer strip ready left read, settle_opu _, settle_pins _,
      congrArg Cvm.strips (settle_cvm _)⟩
  · rw [step_of_empty empty, tick_of_line ready line]
    exact ⟨fun more => congrArg _ (presentBeat_of_more more), fun last =>
      ⟨fun noTrailer => congrArg _ (presentBeat_of_last last noTrailer),
        fun x transfer trailer => congrArg _ (presentBeat_of_trailer last transfer trailer)⟩⟩
  · rw [step_of_empty empty]
    refine ⟨fun sending left => ?_, fun r y sending sent strip built => ?_, fun cutting => ?_⟩
    · rw [tick_of_linesLeft between sending transfer left]
    · rw [tick_of_linesSent ready between sending transfer sent, refreshed_of_strip strip, built]
      rfl
    · rw [tick_of_cut ready between cutting transfer]
      rfl
  · rw [step_of_empty empty, tick_of_notReady low]

end Sys2Proof.Proofs
end

section
/-! What a command of a unit and a request of a session change: each goes on to a next state, and changes no block but those of the model's own table (`touches`). -/
namespace Sys2Proof.Proofs
open Sys2Proof.Machine

/-! ### Answers that go on -/

/-- The answer is a next state, and that state has a property. -/
def Reaches (a : Answer) (P : State → Prop) : Prop := ∃ t, a = .next t ∧ P t

theorem Reaches.next {P : State → Prop} {t : State} (h : P t) : Reaches (.next t) P := ⟨t, rfl, h⟩

theorem Reaches.leadsTo {P : State → Prop} {a : Answer} (h : Reaches a P) : LeadsTo a P := by
  obtain ⟨t, rfl, ht⟩ := h
  exact .next ht

/-- An event that cannot occur has no effect (notes/assumptions/10.md). -/
theorem Reaches.stays {l : List Block} (s : State) : Reaches (.next s) (SameOutside l s) := .next .rfl'

/-- An operation followed by `settle` changes what the operation changes, and the blocks of `settle`. -/
theorem Reaches.settled {l : List Block} {s t : State} (h : SameOutside l s t)
    (sub : ∀ b ∈ settleBlocks, b ∈ l := by decide) : Reaches (.next t.settle) (SameOutside l s) :=
  .next (h.settled (fun b hb => (List.mem_append.mp hb).elim id (sub b)))

/-- A request row always goes on. -/
theorem execute_next (s : State) (type : Byte) (handle : List Byte → State) : ∃ t, s.execute type handle = .next t := by
  rcases execute_cases s type handle with ⟨_, _, _, _, e⟩ | e
  · exact ⟨_, e⟩
  · exact ⟨_, e⟩

theorem execute_reaches {l : List Block} {s : State} {type : Byte} {handle : List Byte → State}
    (h : ∀ body, SameOutside l s (handle body)) : Reaches (s.execute type handle) (SameOutside l s) := by
  obtain ⟨t, e⟩ := execute_next s type handle
  exact ⟨t, e, execute_outside h t e⟩

/-- A request without fields. -/
theorem executeFieldless_reaches {l : List Block} (hl : Block.lku ∈ l) {s t : State} {type : Byte} (h : SameOutside l s t) :
    Reaches (s.execute type (fun body => s.withoutFields body t)) (SameOutside l s) :=
  execute_reaches (fun body => withoutFields_frame body hl h)

/-! ### Frame ingest (01) -/

theorem execHeaderLine_reaches (fv : Bool) (beats : List Beat) (s : State) :
    Reaches (execHeaderLine fv beats s) (SameOutside (.pins :: .tku :: settleBlocks) s) := by
  have level : SameOutside (.pins :: .tku :: settleBlocks) s { s with pins.fipFv := fv } := (frame_pins s _).mono (by decide)
  unfold execHeaderLine
  split
  · exact .settled ((level.comp (abortFilling_frame _) (n := .pins :: .tku :: settleBlocks) (by decide)).comp
      (frameStart_frame _ beats) (by decide))
  · exact .next level

theorem execPictureLine_reaches (fv : Bool) (tag : Beat) (beats : List Beat) (s : State) :
    Reaches (execPictureLine fv tag beats s) (SameOutside (.pins :: .tku :: settleBlocks) s) := by
  have level : SameOutside (.pins :: .tku :: settleBlocks) s { s with pins.fipFv := fv } := (frame_pins s _).mono (by decide)
  unfold execPictureLine
  dsimp only
  split
  · exact .next level
  · split
    · exact .next level
    · split
      · exact .settled (level.comp (abortFilling_frame _) (by decide))
      · exact .settled (level.comp (takeLine_frame _ _ tag beats) (by decide))

theorem execFrameEnd_reaches (s : State) : Reaches (execFrameEnd s) (SameOutside (.pins :: .tku :: settleBlocks) s) := by
  have level : SameOutside (.pins :: .tku :: settleBlocks) s { s with pins.fipFv := false } :=
    (frame_pins s _).mono (by decide)
  unfold execFrameEnd
  dsimp only
  split
  · exact .next level
  · next i _ =>
    split
    · exact .settled ((level.comp (endUnaccepted_frame _ i) (n := .pins :: .tku :: settleBlocks) (by decide)).comp
        (countGeometry_frame _) (by decide))
    · split
      · exact .settled (level.comp (acceptFrame_frame _ i _) (by decide))
      · exact .next level

theorem execInputFault_reaches (s : State) : Reaches (execInputFault s) (SameOutside settleBlocks s) := by
  have taken : SameOutside settleBlocks s { s with igu.faultReport := false } := (frame_igu s _).mono (by decide)
  unfold execInputFault
  split
  · dsimp only
    split
    · exact .next taken
    · exact .settled (taken.comp (endSweep_frame _ _) (by decide))
  · exact .stays s

theorem afterPass_frame (s : State) (p : Prep) : SameOutside [.igu] s (afterPass s p) := by
  have ended : SameOutside [.igu] s { s with igu.prep := none } := frame_igu s _
  exact .ite (ended.comp (setSlotState_frame _ p.slot .queued) (by decide)) (ended.comp (freeSlot_frame _ p.slot) (by decide))

theorem nextPass_frame (s : State) : SameOutside [.igu] s (nextPass s) := by
  unfold nextPass
  split
  · exact startPrepare_frame s _
  · exact .rfl'

theorem execPrepareComplete_reaches (s : State) : Reaches (execPrepareComplete s) (SameOutside settleBlocks s) := by
  rcases execPrepareComplete_cases s with e | ⟨p, _, e⟩ <;> rw [e]
  · exact .stays s
  · exact .settled ((afterPass_frame s p).comp (nextPass_frame _) (by decide))

/-! ### Tracking (02, 03) -/

theorem execTrackStart_reaches (s : State) : Reaches (execTrackStart s) (SameOutside (.tku :: settleBlocks) s) := by
  unfold execTrackStart
  split
  · exact .settled ((beginTracking_frame s _).mono (by decide))
  · exact .stays s

/-- The blocks that the completion of a search and the steps of R47 after it may change. -/
def trackBlocks : List Block := .tku :: .smu :: .cvm :: settleBlocks

theorem execSearchComplete_reaches (s : State) : Reaches (execSearchComplete s) (SameOutside trackBlocks s) := by
  unfold execSearchComplete
  split
  · exact .stays s
  · next op _ =>
    split
    · have formed := formConsensus_frame s op
      dsimp only
      split
      · exact .settled (formed.comp (afterMisses_frame _ _) (by decide))
      · exact .settled (formed.comp (frame_tku _ _) (by decide))
    · exact .stays s

theorem execPatchLost_reaches (s : State) : Reaches (execPatchLost s) (SameOutside trackBlocks s) := by
  unfold execPatchLost
  split
  · exact .stays s
  · next op _ =>
    split
    · exact .settled ((afterMisses_frame s op).mono (by decide))
    · next set id _ _ =>
      have lost := losePatch_frame s set id
      dsimp only
      split
      · exact .settled (lost.comp (afterMisses_frame _ op) (by decide))
      · exact .next (lost.comp (frame_tku _ _) (by decide))
    · exact .stays s

/-- 03 R56: the lock changes, a TRACK notice is queued and the frame's result is formed. -/
theorem lockChanged_frame (s : State) (op : TrackOp) (l : Lock) (b : LockState) :
    SameOutside trackBlocks s (((s.setLock l).notifyTrack op b).frameResult op) :=
  ((setLock_frame s l).comp (notifyTrack_frame _ op b) (n := trackBlocks) (by decide)).comp (frameResult_frame _ op)
    (by decide)

theorem execTrackLocked_reaches (s : State) : Reaches (execTrackLocked s) (SameOutside trackBlocks s) := by
  unfold execTrackLocked
  split
  · exact .stays s
  · split
    · exact .settled (lockChanged_frame s _ _ _)
    · exact .stays s

theorem execTrackLost_reaches (s : State) : Reaches (execTrackLost s) (SameOutside trackBlocks s) := by
  unfold execTrackLost
  split
  · exact .stays s
  · split
    · exact .settled (lockChanged_frame s _ _ _)
    · exact .stays s

theorem execSelectionComplete_reaches (s : State) :
    Reaches (execSelectionComplete s) (SameOutside (.tku :: settleBlocks) s) := by
  unfold execSelectionComplete
  split
  · exact .stays s
  · split
    · exact .stays s
    · next sel _ _ =>
      split
      · have replaced := replaceSet_frame s sel.kind (s.selectionView sel).run.set
        dsimp only
        split
        · exact .settled (replaced.comp (closeFrame_frame _ _) (by decide))
        · exact .settled (replaced.comp (frame_tku _ _) (by decide))
      · exact .stays s

/-! ### SWC's decisions (04, 05, 08) -/

/-- A step that is due once the storing states are left only lets the frame complete (notes/assumptions/10.md). -/
theorem finishFrame_settled_frame (s : State) : SameOutside (.tku :: settleBlocks) s s.finishFrame.settle :=
  (finishFrame_frame s).settled (by decide)

theorem execCalibrationDecision_reaches (s : State) :
    Reaches (execCalibrationDecision s) (SameOutside (.tku :: settleBlocks) s) := by
  unfold execCalibrationDecision
  split
  · exact .stays s
  · split
    · split
      · exact .settled ((decideDirection_frame s _ _).comp (finishFrame_frame _) (by decide))
      · exact .next (finishFrame_settled_frame s)
    · exact .next (finishFrame_settled_frame s)
    · exact .stays s

theorem execCalibrationTimeout_reaches (s : State) :
    Reaches (execCalibrationTimeout s) (SameOutside (.tku :: settleBlocks) s) := by
  unfold execCalibrationTimeout
  split
  · exact .stays s
  · split
    · split
      · exact .settled ((recalibrate_frame s _ _).comp (finishFrame_frame _) (by decide))
      · exact .next (finishFrame_settled_frame s)
    · exact .next (finishFrame_settled_frame s)
    · exact .stays s

theorem execPaceChange_reaches (s : State) :
    Reaches (execPaceChange s) (SameOutside (.tku :: .cvm :: settleBlocks) s) := by
  unfold execPaceChange
  split
  · exact .stays s
  · split
    · split
      · exact .settled ((changePace_frame s _).comp (stallStep_frame _ _ _) (by decide))
      · exact .next ((finishFrame_settled_frame s).mono (by decide))
    · exact .next ((finishFrame_settled_frame s).mono (by decide))
    · exact .stays s

theorem execClosureAccepted_reaches (s : State) : Reaches (execClosureAccepted s) (SameOutside trackBlocks s) := by
  unfold execClosureAccepted
  split
  · exact .stays s
  · split
    · split
      · exact .settled ((acceptClosure_frame s _ _ _).comp (takeOrWait_frame _ _ _ .closure) (by decide))
      · exact .next ((finishFrame_settled_frame s).mono (by decide))
    · exact .next ((finishFrame_settled_frame s).mono (by decide))
    · exact .stays s

theorem execTakeKey_reaches (s : State) : Reaches (execTakeKey s) (SameOutside trackBlocks s) := by
  unfold execTakeKey
  split
  · split
    · split
      · exact .settled ((takeTracked_frame s _ _ _).mono (by decide))
      · exact .stays s
    · split
      · exact .settled ((takeTail_frame s _ _).mono (by decide))
      · exact .stays s
  · exact .stays s

theorem execTailKeyDecision_reaches (s : State) :
    Reaches (execTailKeyDecision s) (SameOutside (.smu :: settleBlocks) s) := by
  unfold execTailKeyDecision
  split
  · exact .settled ((decideTail_frame s).mono (by decide))
  · exact .stays s

theorem execFinalKeyMark_reaches (s : State) : Reaches (execFinalKeyMark s) (SameOutside (.blu :: settleBlocks) s) := by
  unfold execFinalKeyMark
  split
  · exact .settled ((frame_blu s _).mono (by decide))
  · exact .stays s

/-! ### Seams, commits and the canvas (06, 07, 08) -/

theorem execSeamJobDone_reaches (s : State) :
    Reaches (execSeamJobDone s) (SameOutside (.smu :: .blu :: settleBlocks) s) := by
  unfold execSeamJobDone
  split
  · next run job rest _ _ =>
    split
    · have written := writeJob_frame s run.rd.failed job
      dsimp only
      split
      · exact .settled (written.comp (handCommit_frame _ job rest) (by decide))
      · exact .settled (written.comp (frame_smu _ _) (by decide))
    · exact .stays s
  · exact .stays s

theorem execClosureJobBegin_reaches (s : State) :
    Reaches (execClosureJobBegin s) (SameOutside (.smu :: settleBlocks) s) := by
  unfold execClosureJobBegin
  split
  · split
    · exact .settled ((frame_smu s _).mono (by decide))
    · exact .stays s
  · exact .stays s

theorem execCommitEnter_reaches (s : State) :
    Reaches (execCommitEnter s) (SameOutside (.smu :: .blu :: settleBlocks) s) := by
  unfold execCommitEnter
  split
  · split
    · exact .settled ((handCommit_frame s _ _).mono (by decide))
    · exact .stays s
  · exact .stays s

theorem execFinalCommitEnter_reaches (s : State) :
    Reaches (execFinalCommitEnter s) (SameOutside (.blu :: settleBlocks) s) := by
  unfold execFinalCommitEnter
  split
  · exact .settled ((enterCommit_frame s _).mono (by decide))
  · exact .stays s

theorem execStripOpenRequest_reaches (s : State) :
    Reaches (execStripOpenRequest s) (SameOutside (.blu :: .cvm :: .opu :: settleBlocks) s) := by
  unfold execStripOpenRequest
  split
  · exact .stays s
  · split
    · exact .settled ((openStrip_frame s _).mono (by decide))
    · exact .stays s

theorem execCommitComplete_reaches (s : State) :
    Reaches (execCommitComplete s) (SameOutside (.blu :: .cvm :: settleBlocks) s) := by
  unfold execCommitComplete
  split
  · split
    · exact .settled ((completeCommit_frame s _ _ _).mono (by decide))
    · exact .stays s
  · exact .stays s

/-! ### Strip output (09) -/

theorem execTransferStart_reaches (s : State) :
    Reaches (execTransferStart s) (SameOutside (.pins :: .cvm :: .opu :: settleBlocks) s) := by
  unfold execTransferStart
  split
  · exact .stays s
  · split
    · exact .settled ((startTransfer_frame s _).mono (by decide))
    · exact .stays s

theorem execSopLineStart_reaches (s : State) :
    Reaches (execSopLineStart s) (SameOutside (.pins :: .opu :: settleBlocks) s) := by
  unfold execSopLineStart
  split
  · split
    · exact .stays s
    · split
      · exact .settled ((frame_opu s _).comp (presentLine_frame _ _) (by decide))
      · exact .stays s
  · exact .stays s

theorem execTransferComplete_reaches (s : State) :
    Reaches (execTransferComplete s) (SameOutside (.pins :: .blu :: .cvm :: .opu :: settleBlocks) s) := by
  unfold execTransferComplete
  split
  · split
    · exact .stays s
    · split
      · split
        · exact .settled ((transferFailed_frame s _ _).mono (by decide))
        · exact .settled ((transferClean_frame s _ _).mono (by decide))
      · exact .stays s
  · exact .stays s

/-! ### The requests of a session (05) -/

/-- IGU and SWC take new records. -/
theorem frame_arming (s : State) (igu : Igu) (swc : Swc) :
    SameOutside [.igu, .swc, .lku] s { s with igu := igu, swc := swc } :=
  (frame_igu s igu).comp (frame_swc _ swc) (by decide)

theorem sessionArm_frame (s : State) (body : List Byte) : SameOutside [.igu, .swc, .lku] s (s.sessionArm body) := by
  unfold State.sessionArm
  split
  · exact .rfl'
  · split
    · split
      · exact answer_outside (by decide) s _
      · exact frame_arming s _ _
    · exact answer_outside (by decide) s _

theorem armed_frame (s : State) (c : SessionConfig) : SameOutside [.igu, .swc, .lku] s (s.armed c) :=
  ((frame_arming s _ _).comp (enterState_frame _ .armed) (n := [.igu, .swc, .lku]) (by decide)).comp (answer_frame _ _)
    (by decide)

theorem columnMapBuilt_frame (s : State) : SameOutside [.igu, .swc, .lku] s s.columnMapBuilt := by
  unfold State.columnMapBuilt
  split
  · exact .ite (armed_frame s _) .rfl'
  · exact .rfl'

/-- The blocks that the start and the release of a session may change. -/
def sessionBlocks : List Block := [.igu, .tku, .swc, .blu, .cvm, .lku]

/-- The units of a session take new records. -/
theorem frame_session (s : State) (igu : Igu) (tku : Tku) (swc : Swc) (blu : Blu) (cvm : Cvm) :
    SameOutside sessionBlocks s { s with igu := igu, tku := tku, swc := swc, blu := blu, cvm := cvm } := by
  intro b hb
  cases b with
  | igu | tku | swc | blu | cvm | lku => exact absurd (by decide) hb
  | pins | smu | opu | grant | mem | ecc | psc | free | pending => rfl

theorem start_frame (s : State) : SameOutside sessionBlocks s s.start :=
  (frame_session s _ _ _ _ _).comp (enterState_frame _ _) (by decide)

theorem sessionStart_frame (s : State) : SameOutside sessionBlocks s s.sessionStart :=
  .ite ((start_frame s).comp (answer_frame _ _) (by decide)) (answer_outside (by decide) s _)

theorem release_frame (s : State) : SameOutside sessionBlocks s s.release := frame_session s _ _ _ _ _

theorem sessionRelease_frame (s : State) : SameOutside sessionBlocks s s.sessionRelease :=
  .ite (((release_frame s).comp (notifySession_frame _ _ _) (n := sessionBlocks) (by decide)).comp (answer_frame _ _)
    (by decide)) (answer_outside (by decide) s _)

theorem sessionStop_frame (s : State) : SameOutside settleBlocks s s.sessionStop :=
  .ite (((endSweep_frame s _).comp (answer_frame _ _) (n := settleBlocks) (by decide)).settled (by decide))
    (answer_outside (by decide) s _)

/-- The blocks that the abandonment of a session may change. -/
def abandonBlocks : List Block := [.pins, .igu, .tku, .swc, .smu, .blu, .cvm, .opu, .grant, .lku]

theorem sessionAbort_frame (s : State) : SameOutside abandonBlocks s s.sessionAbort :=
  .ite (answer_outside (by decide) s _) (((abandon_frame s).comp (notifySession_frame _ _ _) (n := abandonBlocks)
    (by decide)).comp (answer_frame _ _) (by decide))

theorem engineClears_frame (s : State) : SameOutside abandonBlocks s s.engineClears := by
  have cleared (swc : Swc) (opu : Opu) : SameOutside abandonBlocks s.abandon { s.abandon with swc := swc, opu := opu } :=
    (frame_swc s.abandon swc).comp (frame_opu _ opu) (by decide)
  exact ((((abandon_frame s).comp (cleared _ _) (n := abandonBlocks) (by decide)).comp (emptyNotices_frame _)
    (n := abandonBlocks) (by decide)).comp (setOutputHalted_frame _ false) (n := abandonBlocks) (by decide)).comp
    (setBurnFailed_frame _ false) (by decide)

theorem engineReset_frame (s : State) :
    SameOutside abandonBlocks s (if s.psc.burn.isSome then s.answerCode .busy else s.engineClears.answerCode .ok) :=
  .ite (answer_outside (by decide) s _) ((engineClears_frame s).comp (answer_frame _ _) (by decide))

theorem gyroPut_frame (s : State) (body : List Byte) : SameOutside [.tku, .lku] s (s.gyroPut body) := by
  unfold State.gyroPut
  split
  · exact answer_outside (by decide) s _
  · exact .ite ((frame_tku s _).comp (answer_frame _ _) (by decide)) (answer_outside (by decide) s _)

/-! ### OUTPUT.RESUME (09 R159) -/

/-- 09 R159: an OUTPUT.RESUME changes what a SKIP may change. -/
theorem outputResume_frame (s : State) (action : Option ResumeAction) :
    SameOutside (.blu :: .cvm :: .opu :: settleBlocks) s (s.outputResume action) := by
  rcases outputResume_cases s action with ⟨b, e⟩ | ⟨u, f, e⟩ <;> rw [e]
  · exact answer_outside (by decide) s b
  · exact f.settled (by decide)

/-- 09 R159: without SKIP no commit that waits goes on, so BLU stays. -/
theorem outputResume_frame_of_not_skip (s : State) {action : Option ResumeAction} (noSkip : action ≠ some .skip) :
    SameOutside (.cvm :: .opu :: settleBlocks) s (s.outputResume action) := by
  have resumed {t : State} (f : SameOutside [.cvm, .opu, .lku] s t) :
      SameOutside (.cvm :: .opu :: settleBlocks) s (t.answerCode .ok).settle :=
    (f.comp (answer_frame t _) (n := [.cvm, .opu, .lku]) (by decide)).settled (by decide)
  unfold State.outputResume
  split
  · exact answer_outside (by decide) s _
  · split
    · split
      · exact resumed ((endHalt_frame s).mono (by decide))
      · split
        · exact resumed (retryStrip_frame s _)
        · exact absurd rfl noSkip
    · exact answer_outside (by decide) s _

theorem execOutputResumeRetry_reaches (s : State) :
    Reaches (execOutputResumeRetry s) (SameOutside (.cvm :: .opu :: settleBlocks) s) := by
  refine execute_reaches (fun body => ?_)
  split
  · exact .rfl'
  · next noSkip => exact outputResume_frame_of_not_skip s noSkip

theorem execOutputResumeSkip_reaches (s : State) :
    Reaches (execOutputResumeSkip s) (SameOutside (.blu :: .cvm :: .opu :: settleBlocks) s) :=
  execute_reaches (fun _ => .ite .rfl' (outputResume_frame s _))

end Sys2Proof.Proofs
end

section
/-! The blocks each command may change, the totality of the commands, and the canonical form of buffer memory (10 R161, R162, R165, R169): the settled O4, O2 and O3. -/
namespace Sys2Proof.Proofs
open Sys2Proof.Machine

/-! ### An access to buffer memory (10 R162) -/

/-- The blocks that the completion of an access may change. -/
def accessBlocks : List Block := [.igu, .tku, .smu, .blu, .cvm, .opu, .grant, .mem, .ecc, .lku]

/-- The mark of a word and the flag ECC_ERROR are noted. -/
theorem frame_marks (s : State) (ecc : List (Nat × WordMark)) (lku : Lku) :
    SameOutside [.ecc, .lku] s { s with ecc := ecc, lku := lku } :=
  (frame_ecc s ecc).comp (frame_lku _ lku) (by decide)

theorem completeAccess_frame (s : State) (g : Grant) (now : EccOutcome) :
    SameOutside accessBlocks s (s.completeAccess g now) := by
  cases write : g.access.write with
  | none =>
    rw [completeAccess_of_read write]
    exact (readNoted_frame s g now).comp (frame_marks _ _ _) (by decide)
  | some w =>
    rw [completeAccess_of_write write]
    exact (wordStored_frame s w now).comp (writeDone_frame s g w now) (by decide)

/-- 10 R161, R162: with no access in progress there is only the choice; an access completes and the next one is granted; one beyond the addressed areas faults. -/
theorem exec_memoryAccessComplete_cases (now : EccOutcome) (s : State) :
    exec (.memoryAccessComplete now) s = .next s.arbitrate
      ∨ (∃ g, exec (.memoryAccessComplete now) s = .next ({ s.completeAccess g now with grant := none } : State).arbitrate)
      ∨ exec (.memoryAccessComplete now) s = .fault .noSuchAddress := by
  show execMemoryAccessComplete now s = _ ∨ (∃ g, execMemoryAccessComplete now s = _) ∨ execMemoryAccessComplete now s = _
  unfold execMemoryAccessComplete
  split
  · exact .inl rfl
  · next g _ =>
    split
    · exact .inr (.inl ⟨g, rfl⟩)
    · exact .inr (.inr rfl)

theorem exec_memoryAccessComplete_outside (now : EccOutcome) (s : State) :
    LeadsTo (exec (.memoryAccessComplete now) s) (SameOutside accessBlocks s) := by
  rcases exec_memoryAccessComplete_cases now s with e | ⟨g, e⟩ | e <;> rw [e]
  · exact .next ((arbitrate_frame s).mono (by decide))
  · exact .next (((completeAccess_frame s g now).comp (frame_grant _ none) (n := accessBlocks) (by decide)).comp
      (arbitrate_frame _) (by decide))
  · exact fun _ h => nomatch h

/-- 10 R169, 11 R183: pin reset touches everything but the queue of commands. -/
theorem exec_pinReset_outside (s : State) : LeadsTo (exec .pinReset s) (SameOutside (touches .pinReset) s) := by
  have queue : (pinCleared s).pending = s.pending := by
    show s.cutWrite.pending = s.pending
    rw [cutWrite_eq]
  rw [exec_pinReset]
  refine .next (fun b outside => ?_)
  cases b with
  | pending => exact Eq.trans (load_frame (pinCleared s) .pending (by decide)) queue
  | _ => exact absurd (by decide) outside

/-! ### Every command -/

/-- A command that by the table touches neither IGU nor TKU goes on. -/
theorem exec_next_of_outside {c : Instr} (igu : Block.igu ∉ touches c) (tku : Block.tku ∉ touches c) (s : State) :
    ∃ t, exec c s = .next t := by
  cases c with
  | sopRdyChange level => exact ⟨_, rfl⟩
  | messageSent => exact ⟨_, rfl⟩
  | requestReceived bytes | linkFrameDiscard bytes => exact ⟨_, rfl⟩
  | cutTrailerDone =>
    show ∃ t, execCutTrailerDone s = .next t
    unfold execCutTrailerDone
    split
    · split <;> exact ⟨_, rfl⟩
    · exact ⟨_, rfl⟩
  | linkTransactionStart =>
    show ∃ t, execLinkTransactionStart s = .next t
    unfold execLinkTransactionStart
    split <;> exact ⟨_, rfl⟩
  | linkTransactionEnd tail =>
    show ∃ t, execLinkTransactionEnd tail s = .next t
    unfold execLinkTransactionEnd
    split <;> exact ⟨_, rfl⟩
  | requestDispatch =>
    show ∃ t, execRequestDispatch s = .next t
    unfold execRequestDispatch
    split <;> exact ⟨_, rfl⟩
  | unknownType =>
    show ∃ t, execUnknownType s = .next t
    unfold execUnknownType
    split <;> exact ⟨_, rfl⟩
  | burnComplete found =>
    show ∃ t, execBurnComplete found s = .next t
    unfold execBurnComplete
    split
    · exact ⟨_, rfl⟩
    · split <;> exact ⟨_, rfl⟩
  | identGet | statusGet | sessionSummaryGet | profileLock | profileReload =>
    exact execute_next s _ (fun body => s.withoutFields body _)
  | faultClear | sessionTune | keyGet | stripGet | profileRead | profileStage | profileBurn | profileProtect =>
    exact execute_next s _ _
  | _ => simp [touches, settleBlocks] at igu tku

/-- Every command but the completion of an access goes on, and changes no block but those of the table. -/
theorem exec_reaches {c : Instr} (noAccess : ∀ o, c ≠ .memoryAccessComplete o) (s : State) :
    Reaches (exec c s) (SameOutside (touches c) s) := by
  by_cases outside : Block.igu ∉ touches c ∧ Block.tku ∉ touches c
  · obtain ⟨igu, tku⟩ := outside
    obtain ⟨t, e⟩ := exec_next_of_outside igu tku s
    exact ⟨t, e, exec_outside igu tku s t e⟩
  cases c with
  | headerLine fv beats => exact execHeaderLine_reaches fv beats s
  | pictureLine fv tag beats => exact execPictureLine_reaches fv tag beats s
  | frameEnd => exact execFrameEnd_reaches s
  | frameAbort => exact .settled ((abortFilling_frame s).mono (by decide))
  | inputFault => exact execInputFault_reaches s
  | prepareComplete => exact execPrepareComplete_reaches s
  | trackStart => exact execTrackStart_reaches s
  | searchComplete => exact execSearchComplete_reaches s
  | patchLost => exact execPatchLost_reaches s
  | trackLocked => exact execTrackLocked_reaches s
  | trackLost => exact execTrackLost_reaches s
  | selectionComplete => exact execSelectionComplete_reaches s
  | calibrationDecision => exact execCalibrationDecision_reaches s
  | calibrationTimeout => exact execCalibrationTimeout_reaches s
  | noSweep | stalled | keyLimit => exact .next (endDue_frame s _ _)
  | paceChange => exact execPaceChange_reaches s
  | closureAccepted => exact execClosureAccepted_reaches s
  | takeKey => exact execTakeKey_reaches s
  | tailKeyDecision => exact execTailKeyDecision_reaches s
  | finalKeyMark => exact execFinalKeyMark_reaches s
  | seamJobDone => exact execSeamJobDone_reaches s
  | closureJobBegin => exact execClosureJobBegin_reaches s
  | commitEnter => exact execCommitEnter_reaches s
  | finalCommitEnter => exact execFinalCommitEnter_reaches s
  | stripOpenRequest => exact execStripOpenRequest_reaches s
  | commitComplete => exact execCommitComplete_reaches s
  | memoryAccessComplete o => exact absurd rfl (noAccess o)
  | transferStart => exact execTransferStart_reaches s
  | sopLineStart => exact execSopLineStart_reaches s
  | transferComplete => exact execTransferComplete_reaches s
  | sessionArm => exact execute_reaches (sessionArm_frame s)
  | columnMapBuilt => exact execute_reaches (fun _ => columnMapBuilt_frame s)
  | sessionStart => exact executeFieldless_reaches (by decide) (sessionStart_frame s)
  | sessionStop => exact executeFieldless_reaches (by decide) (sessionStop_frame s)
  | sessionAbort => exact executeFieldless_reaches (by decide) (sessionAbort_frame s)
  | sessionRelease => exact executeFieldless_reaches (by decide) (sessionRelease_frame s)
  | gyroPut => exact execute_reaches (gyroPut_frame s)
  | outputResumeRetry => exact execOutputResumeRetry_reaches s
  | outputResumeSkip => exact execOutputResumeSkip_reaches s
  | engineReset => exact executeFieldless_reaches (by decide) (engineReset_frame s)
  | pinReset => exact ⟨_, exec_pinReset s, exec_pinReset_outside s _ (exec_pinReset s)⟩
  | _ => simp [touches] at outside

/-- Every command changes no block but those of the table. -/
theorem exec_touches (c : Instr) (s : State) : LeadsTo (exec c s) (SameOutside (touches c) s) := by
  by_cases access : ∃ o, c = .memoryAccessComplete o
  · obtain ⟨o, rfl⟩ := access
    exact exec_memoryAccessComplete_outside o s
  · exact (exec_reaches (fun o e => access ⟨o, e⟩) s).leadsTo

/-! ### The canonical form of buffer memory (10 R161, R165) -/

/-- From `s` to `t` the canonical form of memory and of the marks is kept. -/
def KeepsCanonical (s t : State) : Prop := s.MemoryCanonical → t.MemoryCanonical

theorem KeepsCanonical.trans {s t u : State} (h : KeepsCanonical s t) (k : KeepsCanonical t u) : KeepsCanonical s u := k ∘ h

theorem KeepsCanonical.of_same {s t : State} (mem : t.mem = s.mem) (ecc : t.ecc = s.ecc) : KeepsCanonical s t := fun h => by
  unfold State.MemoryCanonical
  rwa [mem, ecc]

theorem KeepsCanonical.of_frame {l : List Block} {s t : State} (f : SameOutside l s t) (mem : Block.mem ∉ l)
    (ecc : Block.ecc ∉ l) : KeepsCanonical s t := .of_same (f.mem mem) (f.ecc ecc)

/-- 10 R165, R169: a word is written and its mark is set or cleared. -/
theorem KeepsCanonical.of_word {s t : State} {w : Nat} {bytes : List (Option Byte)} {bad : Bool}
    (mem : t.mem = writeBytes s.mem w bytes)
    (ecc : t.ecc = if bad then setMark s.ecc w .uncorrectable else clearMark s.ecc w) : KeepsCanonical s t := by
  rintro ⟨wf, marks⟩
  refine ⟨mem ▸ writeBytes_wf bytes s.mem w wf, ?_⟩
  rw [ecc]
  split
  · exact setMark_canonical s.ecc marks w _
  · exact clearMark_keysAbove 0 s.ecc marks w

theorem wordStored_keepsCanonical (s : State) (w : WordWrite) (now : EccOutcome) : KeepsCanonical s (wordStored s w now) := by
  refine .of_word (bad := mergeFailed s w now) (wordStored_mem s w now) ?_
  unfold wordStored
  cases mergeFailed s w now <;> rfl

theorem completeAccess_keepsCanonical (s : State) (g : Grant) (now : EccOutcome) :
    KeepsCanonical s (s.completeAccess g now) := by
  cases write : g.access.write with
  | none =>
    rintro ⟨wf, marks⟩
    rw [completeAccess_of_read write]
    refine ⟨?_, markAfterRead_canonical s.ecc marks _ _⟩
    show Memory.wf (readNoted s g now).mem = true
    rwa [(readNoted_frame s g now).mem (by decide)]
  | some w =>
    rw [completeAccess_of_write write]
    exact (wordStored_keepsCanonical s w now).trans (.of_frame (writeDone_frame s g w now) (by decide) (by decide))

theorem exec_memoryAccessComplete_keepsCanonical (now : EccOutcome) (s : State) :
    LeadsTo (exec (.memoryAccessComplete now) s) (KeepsCanonical s) := by
  rcases exec_memoryAccessComplete_cases now s with e | ⟨g, e⟩ | e <;> rw [e]
  · exact .next (.of_same rfl rfl)
  · exact .next ((completeAccess_keepsCanonical s g now).trans (.of_same rfl rfl))
  · exact fun _ h => nomatch h

theorem cutWrite_keepsCanonical (s : State) : KeepsCanonical s s.cutWrite := by
  by_cases written : ∃ g w, s.grant = some g ∧ g.access.write = some w
  · obtain ⟨g, w, grant, write⟩ := written
    rw [cutWrite_of_write grant write]
    exact .of_word rfl rfl
  · rw [cutWrite_of_noWrite (fun g grant => Option.eq_none_iff_forall_ne_some.mpr
      (fun w write => written ⟨g, w, grant, write⟩))]
    exact id

theorem exec_pinReset_keepsCanonical (s : State) : LeadsTo (exec .pinReset s) (KeepsCanonical s) := by
  have cleared : KeepsCanonical s (pinCleared s) := (cutWrite_keepsCanonical s).trans (.of_same rfl rfl)
  rw [exec_pinReset]
  exact .next (cleared.trans (.of_frame (load_frame _) (by decide) (by decide)))

/-- By the table a command other than these two touches neither memory nor the marks. -/
theorem memory_not_touched {c : Instr} (noAccess : ∀ o, c ≠ .memoryAccessComplete o) (noReset : c ≠ .pinReset) :
    Block.mem ∉ touches c ∧ Block.ecc ∉ touches c := by
  cases c with
  | memoryAccessComplete o => exact absurd rfl (noAccess o)
  | pinReset => exact absurd rfl noReset
  | _ => simp [touches, settleBlocks]

theorem exec_keepsCanonical (c : Instr) (s : State) : LeadsTo (exec c s) (KeepsCanonical s) := by
  by_cases access : ∃ o, c = .memoryAccessComplete o
  · obtain ⟨o, rfl⟩ := access
    exact exec_memoryAccessComplete_keepsCanonical o s
  by_cases reset : c = .pinReset
  · subst reset
    exact exec_pinReset_keepsCanonical s
  · obtain ⟨mem, ecc⟩ := memory_not_touched (fun o e => access ⟨o, e⟩) reset
    exact (exec_touches c s).mono (fun _ f => .of_frame f mem ecc)

/-! ### The settled statements -/

/-- Settles O4: a step is a command at the front of the queue or a tick of the strip output port. -/
theorem memoryCanonicalKept : Obligations.MemoryCanonicalKept := by
  intro s t canonical run
  unfold step at run
  split at run
  · cases run
    exact KeepsCanonical.of_frame (tick_frame s) (by decide) (by decide) canonical
  · next c rest _ => exact exec_keepsCanonical c { s with pending := rest } t run canonical

/-- No command has the queue of commands in the table. -/
theorem pending_not_touched (c : Instr) : Block.pending ∉ touches c := by
  cases c <;> simp [touches, settleBlocks]

/-- Settles O2: the frame of every command leaves the queue out, and only the completion of an access can fault. -/
theorem execTotalKeepsQueue : Obligations.ExecTotalKeepsQueue := by
  refine ⟨fun c s => ?_, fun c s t run => exec_touches c s t run .pending (pending_not_touched c)⟩
  by_cases access : ∃ o, c = .memoryAccessComplete o
  · obtain ⟨o, rfl⟩ := access
    rcases exec_memoryAccessComplete_cases o s with e | ⟨g, e⟩ | e
    · exact .inl ⟨_, e⟩
    · exact .inl ⟨_, e⟩
    · exact .inr ⟨⟨o, rfl⟩, e⟩
  · obtain ⟨t, e, _⟩ := exec_reaches (fun o e => access ⟨o, e⟩) s
    exact .inl ⟨t, e⟩

/-- Settles O3: the frame of every command, and of it buffer memory, which only two commands touch. -/
theorem blocksUntouched : Obligations.BlocksUntouched := by
  refine ⟨exec_touches, fun c s t noAccess noReset run a => ?_⟩
  obtain ⟨mem, _⟩ := memory_not_touched noAccess noReset
  rw [(exec_touches c s t run).mem mem]

end Sys2Proof.Proofs
end

section
/-! What every command does to the queues and the event flags of the link unit (11 R173, R174, R176, R179): the queues keep within their places and a set flag stays: the settled O5 and O14. -/
namespace Sys2Proof.Proofs
open Sys2Proof.Machine

/-! ### Operations that neither take nor answer a request -/

/-- From `s` to `t` the requests and replies are the same, the notices keep within 16 places, and set flags stay. -/
structure LinkStays (s t : State) : Prop where
  requests : t.lku.requests = s.lku.requests
  executing : t.lku.executing = s.lku.executing
  replies : t.lku.replies = s.lku.replies
  notices : s.lku.notices.length ≤ 16 → t.lku.notices.length ≤ 16
  flags : s.lku.flags.Within t.lku.flags

theorem LinkStays.of_kept {s t : State} (h : KeptCore s t) : LinkStays s t :=
  ⟨h.link.1, h.link.2.1, h.link.2.2, h.notices, h.flags⟩

theorem LinkStays.of_lku {s t : State} (h : t.lku = s.lku) : LinkStays s t := by
  constructor <;> rw [h]
  · exact id
  · exact .rfl' _

theorem LinkStays.of_frame {l : List Block} {s t : State} (f : SameOutside l s t) (lku : Block.lku ∉ l) : LinkStays s t :=
  .of_lku (f.lku lku)

theorem LinkStays.refl (s : State) : LinkStays s s := .of_lku rfl

theorem LinkStays.trans {s t u : State} (h : LinkStays s t) (k : LinkStays t u) : LinkStays s u :=
  ⟨k.requests.trans h.requests, k.executing.trans h.executing, k.replies.trans h.replies, k.notices ∘ h.notices,
    h.flags.trans k.flags⟩

/-- A notice queued after a change outside the link unit. -/
theorem LinkStays.noticed {s t : State} (h : t.lku = s.lku) (b : NoticeBody) : LinkStays s (t.notify b) :=
  (LinkStays.of_lku h).trans (.of_kept (notify_kept t b).toKeptCore)

theorem enterState_linkStays (s : State) (a : SessionState) : LinkStays s (s.enterState a) := .noticed (by rfl) _

theorem settle_linkStays (s : State) : LinkStays s s.settle := .of_kept (settle_kept s).toKeptCore

theorem start_linkStays (s : State) : LinkStays s s.start :=
  LinkStays.trans (.of_lku (by rfl)) (enterState_linkStays _ _)

theorem abandon_linkStays (s : State) : LinkStays s s.abandon := .of_frame (abandon_frame s) (by decide)

/-- 11 R183: ENGINE.RESET empties the notice queue and leaves requests, replies and flags. -/
theorem engineClears_linkStays (s : State) : LinkStays s s.engineClears := by
  rw [engineClears_eq]
  exact ⟨rfl, rfl, rfl, fun _ => Nat.zero_le 16, .rfl' _⟩

theorem load_linkStays (s : State) : LinkStays s s.load := by
  constructor <;> rw [load_lku]
  · exact id
  · exact .rfl' _

theorem burnMatched_linkStays (s : State) (job : BurnJob) : LinkStays s (s.burnMatched job) := by
  unfold State.burnMatched
  cases job <;> exact .noticed (by rfl) _

theorem burnFailed_linkStays (s : State) (job : BurnJob) : LinkStays s (s.burnFailed job) :=
  LinkStays.trans (.trans (.of_lku (by rfl)) (.of_kept (setBurnFailed_kept { s with psc.burn := none } true).toKeptCore))
    (.noticed (by rfl) _)

/-! ### What the statements say -/

/-- From `s` to `t` the queues of the link stay bounded, and set flags stay. -/
structure KeepsLink (s t : State) : Prop where
  bounded : s.LinkBounded → t.LinkBounded
  flags : s.lku.flags.Within t.lku.flags

theorem KeepsLink.refl (s : State) : KeepsLink s s := ⟨id, .rfl' _⟩

theorem KeepsLink.trans {s t u : State} (h : KeepsLink s t) (k : KeepsLink t u) : KeepsLink s u :=
  ⟨k.bounded ∘ h.bounded, h.flags.trans k.flags⟩

theorem LinkStays.keepsLink {s t : State} (h : LinkStays s t) : KeepsLink s t := by
  refine ⟨fun ⟨requests, places, notices, head⟩ => ?_, h.flags⟩
  unfold State.LinkBounded Lku.placesTaken
  rw [h.requests, h.executing, h.replies]
  exact ⟨requests, places, h.notices notices, head⟩

/-- 11 R173, R174: the reply of a dispatched request takes the place that was reserved for it. -/
theorem answer_linkBounded {s : State} (dispatched : s.lku.executing = true) (b : ReplyBody) (h : s.LinkBounded) :
    (s.answer b).LinkBounded := by
  obtain ⟨requests, places, notices, head⟩ := h
  unfold State.answer
  split
  · next empty => exact absurd empty (head dispatched)
  · next r rest queue =>
    rw [queue, List.length_cons] at requests
    rw [Lku.placesTaken, dispatched] at places
    exact ⟨Nat.le_of_succ_le requests, by simpa [Lku.placesTaken] using places, notices, nofun⟩

theorem answer_flags (s : State) (b : ReplyBody) : (s.answer b).lku.flags = s.lku.flags := by
  unfold State.answer
  split <;> rfl

theorem answer_keepsLink {s : State} (dispatched : s.lku.executing = true) (b : ReplyBody) : KeepsLink s (s.answer b) :=
  ⟨answer_linkBounded dispatched b, answer_flags s b ▸ .rfl' _⟩

/-! ### Request rows -/

/-- From `s` to `t` the head request is answered once, or not at all. -/
def Served (s t : State) : Prop := LinkStays s t ∨ ∃ u b, LinkStays s u ∧ LinkStays (u.answer b) t

theorem Served.refl (s : State) : Served s s := .inl (.refl s)

theorem LinkStays.answered {s u : State} (h : LinkStays s u) (b : ReplyBody) : Served s (u.answer b) :=
  .inr ⟨u, b, h, .refl _⟩

theorem answer_served (s : State) (b : ReplyBody) : Served s (s.answer b) := (LinkStays.refl s).answered b

theorem Served.settled {s t : State} (h : Served s t) : Served s t.settle := by
  rcases h with h | ⟨u, b, before, after⟩
  · exact .inl (h.trans (settle_linkStays t))
  · exact .inr ⟨u, b, before, after.trans (settle_linkStays t)⟩

theorem Served.keepsLink {s t : State} (h : Served s t) (dispatched : s.lku.executing = true) : KeepsLink s t := by
  rcases h with h | ⟨u, b, before, after⟩
  · exact h.keepsLink
  · exact (before.keepsLink.trans (answer_keepsLink (before.executing.trans dispatched) b)).trans after.keepsLink

/-- A request row runs on a dispatched request only. -/
theorem execute_keepsLink {s : State} {type : Byte} {handle : List Byte → State} (h : ∀ body, Served s (handle body)) :
    LeadsTo (s.execute type handle) (KeepsLink s) := by
  rcases execute_cases s type handle with ⟨_, body, _, ⟨dispatched, _⟩, e⟩ | e <;> rw [e]
  · exact .next ((h body).keepsLink dispatched)
  · exact .next (.refl s)

theorem withoutFields_served {s t : State} (body : List Byte) (h : Served s t) : Served s (s.withoutFields body t) := by
  rcases withoutFields_cases s t body with e | ⟨b, e⟩ <;> rw [e]
  · exact h
  · exact answer_served s b

theorem executeFieldless_keepsLink {s t : State} {type : Byte} (h : Served s t) :
    LeadsTo (s.execute type (fun body => s.withoutFields body t)) (KeepsLink s) :=
  execute_keepsLink (fun body => withoutFields_served body h)

theorem executing_of_headRequest {s : State} {p : Byte → Bool} {r : Request} (h : s.headRequest p = some r) :
    s.lku.executing = true := by
  unfold State.headRequest at h
  split at h
  · next dispatched => exact dispatched
  · cases h

theorem execUnknownType_keepsLink (s : State) : LeadsTo (execUnknownType s) (KeepsLink s) := by
  unfold execUnknownType
  split
  · next head => exact .next (answer_keepsLink (executing_of_headRequest head) _)
  · exact .next (.refl s)

theorem faultClear_served (s : State) (body : List Byte) : Served s (s.faultClear body) := by
  have cleared (c : Conditions) : LinkStays s { s with lku.conds := c } := ⟨rfl, rfl, rfl, id, .rfl' _⟩
  unfold State.faultClear
  split
  · exact answer_served s _
  · split
    · exact answer_served s _
    · exact (cleared _).answered _

theorem keyGet_served (s : State) (body : List Byte) : Served s (s.keyGet body) := by
  unfold State.keyGet
  split
  · exact answer_served s _
  · split <;> exact answer_served s _

theorem stripGet_served (s : State) (body : List Byte) : Served s (s.stripGet body) := by
  unfold State.stripGet
  split
  · exact answer_served s _
  · split <;> exact answer_served s _

theorem sessionArm_served (s : State) (body : List Byte) : Served s (s.sessionArm body) := by
  rcases sessionArm_cases s body with e | ⟨b, e⟩ | ⟨c, e⟩ <;> rw [e]
  · exact .refl s
  · exact answer_served s b
  · exact .inl (.of_lku (by rfl))

theorem columnMapBuilt_served (s : State) : Served s s.columnMapBuilt := by
  rcases columnMapBuilt_cases s with e | ⟨c, e⟩ <;> rw [e]
  · exact .refl s
  · exact LinkStays.answered (LinkStays.trans (.of_lku (by rfl)) (enterState_linkStays _ _)) _

theorem sessionStart_served (s : State) : Served s s.sessionStart := by
  unfold State.sessionStart
  split
  · exact (start_linkStays s).answered _
  · exact answer_served s _

theorem sessionTune_served (s : State) (body : List Byte) : Served s (s.sessionTune body) := by
  obtain ⟨config, pending, b, e⟩ := sessionTune_cases s body
  rw [e]
  exact LinkStays.answered (.of_lku (by rfl)) b

theorem sessionStop_served (s : State) : Served s s.sessionStop := by
  unfold State.sessionStop
  split
  · exact (LinkStays.answered (.of_kept (endSweep_kept s .userStop).toKeptCore) _).settled
  · exact answer_served s _

theorem sessionAbort_served (s : State) : Served s s.sessionAbort := by
  unfold State.sessionAbort
  split
  · exact answer_served s _
  · exact ((abandon_linkStays s).trans (.noticed (by rfl) _)).answered _

theorem sessionRelease_served (s : State) : Served s s.sessionRelease := by
  unfold State.sessionRelease
  split
  · exact LinkStays.answered (LinkStays.noticed (t := s.release) (by rfl) _) _
  · exact answer_served s _

theorem sessionSummary_served (s : State) : Served s s.sessionSummary := by
  unfold State.sessionSummary
  split <;> exact answer_served s _

theorem gyroPut_served (s : State) (body : List Byte) : Served s (s.gyroPut body) := by
  obtain ⟨g, b, e⟩ := gyroPut_cases s body
  rw [e]
  exact LinkStays.answered (.of_lku (by rfl)) b

theorem outputResume_served (s : State) (action : Option ResumeAction) : Served s (s.outputResume action) := by
  unfold State.outputResume
  split
  · exact answer_served s _
  · split
    · next halted =>
      split
      · exact (LinkStays.answered (.of_kept (endHalt_core s)) _).settled
      · split
        · exact (LinkStays.answered (.of_kept (retryStrip_kept s _ halted).toKeptCore) _).settled
        · exact (LinkStays.answered (.of_kept (skipStrip_kept s _ halted).toKeptCore) _).settled
    · exact answer_served s _

/-- 09 R159: a row of OUTPUT.RESUME leaves the action of the other row to it. -/
theorem resumeRow_served (s : State) (otherRow : Prop) [Decidable otherRow] (action : Option ResumeAction) :
    Served s (if otherRow then s else s.outputResume action) := by
  split
  · exact .refl s
  · exact outputResume_served s action

theorem engineReset_served (s : State) :
    Served s (if s.psc.burn.isSome then s.answerCode .busy else s.engineClears.answerCode .ok) := by
  split
  · exact answer_served s _
  · exact (engineClears_linkStays s).answered _

/-! ### Requests of the profile store, and the end of a burn (12) -/

theorem profileRead_served (s : State) (body : List Byte) : Served s (s.profileRead body) := by
  unfold State.profileRead
  split
  · exact answer_served s _
  · split
    · exact answer_served s _
    · split <;> exact answer_served s _

theorem profileStage_served (s : State) (body : List Byte) : Served s (s.profileStage body) := by
  unfold State.profileStage
  split
  · exact answer_served s _
  · split
    · exact answer_served s _
    · exact LinkStays.answered (.of_lku (by rfl)) _

theorem startBurn_served (s : State) (job : BurnJob) : Served s (s.startBurn job) := LinkStays.answered (.of_lku (by rfl)) _

theorem profileBurn_served (s : State) (body : List Byte) : Served s (s.profileBurn body) := by
  unfold State.profileBurn
  split
  · exact answer_served s _
  · split
    · exact answer_served s _
    · repeat (refine iteInduction (fun _ => answer_served s _) (fun _ => ?_))
      exact startBurn_served s _

theorem protectionBurn_served (s : State) (job : BurnJob) : Served s (s.protectionBurn job) := by
  unfold State.protectionBurn
  repeat (refine iteInduction (fun _ => answer_served s _) (fun _ => ?_))
  exact startBurn_served s job

theorem profileProtect_served (s : State) (body : List Byte) : Served s (s.profileProtect body) := by
  unfold State.profileProtect
  split
  · exact answer_served s _
  · exact protectionBurn_served s _

theorem profileReload_served (s : State) : Served s s.profileReload := by
  unfold State.profileReload
  repeat (refine iteInduction (fun _ => answer_served s _) (fun _ => ?_))
  exact (load_linkStays s).answered _

theorem execBurnComplete_keepsLink (found : ReadBack) (s : State) : LeadsTo (execBurnComplete found s) (KeepsLink s) := by
  have profile (job : BurnJob) (i : Fin 4) (meant f : ProfileFields) (crc : BitVec 16) :
      KeepsLink s (s.profileReadBack job i meant f crc) :=
    iteInduction (fun _ => (burnMatched_linkStays s job).keepsLink)
      (fun _ => (LinkStays.trans (.of_lku (by rfl)) (burnFailed_linkStays _ job)).keepsLink)
  have protection (job : BurnJob) (meant f : ProtectionFields) (crc : BitVec 16) :
      KeepsLink s (s.protectionReadBack job meant f crc) :=
    iteInduction (fun _ => (burnMatched_linkStays s job).keepsLink)
      (fun _ => (LinkStays.trans (.of_lku (by rfl)) (burnFailed_linkStays _ job)).keepsLink)
  unfold execBurnComplete
  split
  · exact .next (.refl s)
  · next job _ =>
    split
    · exact .next (burnMatched_linkStays s job).keepsLink
    · exact .next (profile _ _ _ _ _)
    · exact .next (protection _ _ _ _)
    · exact .next (protection _ _ _ _)
    all_goals exact .next (.refl s)

/-! ### The transport (11 R170, R172, R173) -/

theorem takeRequest_keepsLink (s : State) (r : Request) : KeepsLink s (s.takeRequest r) := by
  rcases takeRequest_cases s r with ⟨room, e⟩ | ⟨_, room, e⟩ | ⟨_, _, e⟩ <;> rw [e]
  · refine ⟨fun ⟨_, places, notices, _⟩ => ⟨?_, places, notices, fun _ => by simp⟩, .rfl' _⟩
    rw [List.length_append]
    exact room
  · refine ⟨fun ⟨requests, _, notices, head⟩ => ⟨requests, ?_, notices, head⟩, .rfl' _⟩
    refine le_trans (le_of_eq ?_) (Nat.succ_le_of_lt room)
    simp only [Lku.placesTaken, List.length_append, List.length_singleton]
    exact Nat.add_right_comm _ _ _
  · exact ⟨id, id, fun _ => rfl, id, id, id⟩

/-- The receiver's own state is no part of what is kept. -/
theorem receiver_linkStays (s : State) (rx : Receiver) : LinkStays s { s with lku.rx := rx } := ⟨rfl, rfl, rfl, id, .rfl' _⟩

theorem discardInbound_keepsLink (s : State) : KeepsLink s s.discardInbound := ⟨id, fun _ => rfl, id, id, id, id⟩

theorem receiveByte_keepsLink (s : State) (b : Byte) : KeepsLink s (s.receiveByte b) := by
  unfold State.receiveByte
  split
  · split
    · exact (receiver_linkStays s _).keepsLink
    · exact .refl s
  · split
    · exact (receiver_linkStays s _).keepsLink
    · exact discardInbound_keepsLink s
    · exact (receiver_linkStays s .hunt).keepsLink.trans (takeRequest_keepsLink _ _)

theorem outbound_linkStays (s : State) (tx : Outbound) : LinkStays s { s with lku.tx := tx } := ⟨rfl, rfl, rfl, id, .rfl' _⟩

/-- 11 R170: a message shifted out whole frees its place. -/
theorem shiftByte_keepsLink (s : State) : KeepsLink s s.shiftByte := by
  unfold State.shiftByte
  split
  · exact .refl s
  · exact .refl s
  · exact (outbound_linkStays s _).keepsLink
  · exact (outbound_linkStays s _).keepsLink
  · exact (outbound_linkStays s _).keepsLink
  · refine ⟨fun ⟨requests, places, notices, head⟩ => ⟨requests, ?_, notices, head⟩, .rfl' _⟩
    refine le_trans (Nat.add_le_add_right ?_ _) places
    exact (List.length_tail (l := s.lku.replies)).trans_le (Nat.sub_le _ 1)
  · refine ⟨fun ⟨requests, places, notices, head⟩ => ⟨requests, places, ?_, head⟩, .rfl' _⟩
    exact (List.length_tail (l := s.lku.notices)).trans_le ((Nat.sub_le _ 1).trans notices)
  · exact (outbound_linkStays s _).keepsLink

theorem receive_keepsLink (s : State) (bytes : List Byte) : KeepsLink s (s.receive bytes) := by
  have clocked (l : List Byte) : ∀ t : State, KeepsLink t (l.foldl State.clockByte t) := by
    induction l with
    | nil => exact KeepsLink.refl
    | cons b rest ih =>
      exact fun t => ((shiftByte_keepsLink t).trans (receiveByte_keepsLink _ b)).trans (ih (t.clockByte b))
  unfold State.receive
  split
  · exact clocked bytes s
  · exact .refl s

theorem cutInbound_keepsLink (s : State) : KeepsLink s s.cutInbound := by
  unfold State.cutInbound
  split
  · exact .refl s
  · exact discardInbound_keepsLink s

theorem execLinkTransactionStart_keepsLink (s : State) : LeadsTo (execLinkTransactionStart s) (KeepsLink s) := by
  unfold execLinkTransactionStart
  split
  · exact .next (.refl s)
  · exact .next (LinkStays.keepsLink ⟨rfl, rfl, rfl, id, .rfl' _⟩)

theorem execLinkTransactionEnd_keepsLink (tail : List Byte) (s : State) :
    LeadsTo (execLinkTransactionEnd tail s) (KeepsLink s) := by
  have received : KeepsLink s (s.receive tail).cutInbound := (receive_keepsLink s tail).trans (cutInbound_keepsLink _)
  unfold execLinkTransactionEnd
  split
  · exact .next (received.trans (LinkStays.keepsLink ⟨rfl, rfl, rfl, id, .rfl' _⟩))
  · exact .next (.refl s)

/-- 11 R173, R174: a dispatch reserves a reply place for a head request that is there. -/
theorem execRequestDispatch_keepsLink (s : State) : LeadsTo (execRequestDispatch s) (KeepsLink s) := by
  unfold execRequestDispatch
  split
  · next h =>
    obtain ⟨_, waiting, room⟩ := h
    exact .next ⟨fun ⟨requests, _, notices, _⟩ => ⟨requests, room, notices, fun _ => waiting⟩, .rfl' _⟩
  · exact .next (.refl s)

/-! ### Every command -/

/-- The units' commands keep the link as their shared operations do; the others are the requests, the end of a burn and the transport. -/
theorem exec_keepsLink {c : Instr} (status : c ≠ .statusGet) (reset : c ≠ .pinReset) (s : State) :
    LeadsTo (exec c s) (KeepsLink s) := by
  by_cases unit : unitCommand c = true
  · exact (exec_kept unit s).mono (fun _ k => (LinkStays.of_kept k.toKeptCore).keepsLink)
  cases c with
  | linkTransactionStart => exact execLinkTransactionStart_keepsLink s
  | linkTransactionEnd tail => exact execLinkTransactionEnd_keepsLink tail s
  | messageSent => exact .next (receive_keepsLink s _)
  | requestReceived bytes | linkFrameDiscard bytes => exact .next (receive_keepsLink s bytes)
  | requestDispatch => exact execRequestDispatch_keepsLink s
  | unknownType => exact execUnknownType_keepsLink s
  | identGet => exact executeFieldless_keepsLink (answer_served s _)
  | statusGet => exact absurd rfl status
  | faultClear => exact execute_keepsLink (faultClear_served s)
  | keyGet => exact execute_keepsLink (keyGet_served s)
  | stripGet => exact execute_keepsLink (stripGet_served s)
  | sessionArm => exact execute_keepsLink (sessionArm_served s)
  | columnMapBuilt => exact execute_keepsLink (fun _ => columnMapBuilt_served s)
  | sessionStart => exact executeFieldless_keepsLink (sessionStart_served s)
  | sessionTune => exact execute_keepsLink (sessionTune_served s)
  | sessionStop => exact executeFieldless_keepsLink (sessionStop_served s)
  | sessionAbort => exact executeFieldless_keepsLink (sessionAbort_served s)
  | sessionRelease => exact executeFieldless_keepsLink (sessionRelease_served s)
  | sessionSummaryGet => exact executeFieldless_keepsLink (sessionSummary_served s)
  | gyroPut => exact execute_keepsLink (gyroPut_served s)
  | outputResumeRetry => exact execute_keepsLink (fun body => resumeRow_served s (resumeBody body = some .skip) _)
  | outputResumeSkip => exact execute_keepsLink (fun body => resumeRow_served s (resumeBody body = some .retry) _)
  | profileRead => exact execute_keepsLink (profileRead_served s)
  | profileStage => exact execute_keepsLink (profileStage_served s)
  | profileBurn => exact execute_keepsLink (profileBurn_served s)
  | profileProtect => exact execute_keepsLink (profileProtect_served s)
  | profileLock => exact executeFieldless_keepsLink (protectionBurn_served s _)
  | profileReload => exact executeFieldless_keepsLink (profileReload_served s)
  | burnComplete found => exact execBurnComplete_keepsLink found s
  | engineReset => exact executeFieldless_keepsLink (engineReset_served s)
  | pinReset => exact absurd rfl reset
  | _ => exact absurd rfl unit

/-- 11 R178: the flags that STATUS.GET clears are no part of the bounds. -/
theorem exec_statusGet_linkBounded {s : State} (h : s.LinkBounded) : LeadsTo (exec .statusGet s) State.LinkBounded := by
  rcases execute_cases s 0x02#8 (fun body => s.withoutFields body (s.answer (.status s.statusRecord)).clearEventFlags)
    with ⟨_, body, _, ⟨dispatched, _⟩, e⟩ | e
  · refine fun t run => ?_
    cases e.symm.trans run
    rcases withoutFields_cases s (s.answer (.status s.statusRecord)).clearEventFlags body with e | ⟨b, e⟩ <;> rw [e]
    · exact answer_linkBounded dispatched (.status s.statusRecord) h
    · exact answer_linkBounded dispatched b h
  · refine fun t run => ?_
    cases e.symm.trans run
    exact h

/-- 11 R183: after pin reset every queue of the link is empty. -/
theorem exec_pinReset_linkBounded (s : State) : LeadsTo (exec .pinReset s) State.LinkBounded := by
  rw [exec_pinReset]
  refine .next ?_
  unfold State.LinkBounded
  rw [pinReset_lku]
  exact ⟨Nat.zero_le 8, Nat.zero_le 9, Nat.zero_le 16, nofun⟩

theorem exec_linkBounded (c : Instr) {s : State} (h : s.LinkBounded) : LeadsTo (exec c s) State.LinkBounded := by
  by_cases status : c = .statusGet
  · subst status
    exact exec_statusGet_linkBounded h
  by_cases reset : c = .pinReset
  · subst reset
    exact exec_pinReset_linkBounded s
  · exact (exec_keepsLink status reset s).mono (fun _ k => k.bounded h)

/-- Settles O5: a step is a command at the front of the queue or a tick of the strip output port. -/
theorem linkBoundedKept : Obligations.LinkBoundedKept := by
  intro s t bounded run
  unfold step at run
  split at run
  · cases run
    exact (LinkStays.of_kept (tick_kept s).toKeptCore).keepsLink.bounded bounded
  · next c rest _ => exact exec_linkBounded c (s := { s with pending := rest }) bounded t run

/-- Settles O14: what every command but STATUS_GET and PIN_RESET keeps of the link. -/
theorem eventFlagsStay : Obligations.EventFlagsStay :=
  fun _ s t status reset run => (exec_keepsLink status reset s t run).flags

end Sys2Proof.Proofs
end

section
/-! The bytes of the link (11 R170 to R173, R176, R177): what a run of bytes makes of the receiver and of the message being shifted out: the settled O45, O46 and O47. -/
namespace Sys2Proof.Proofs
open Sys2Proof.Machine

/-! ### The bytes out (11 R170) -/

/-- The part with the receiver in a given state. -/
def withReceiver (s : State) (rx : Receiver) : State := { s with lku.rx := rx }

theorem withReceiver_self {s : State} {rx : Receiver} (h : s.lku.rx = rx) : withReceiver s rx = s := by
  subst h
  rfl

/-- The receiver has no part in what is shifted out. -/
theorem shiftByte_withReceiver (s : State) (rx : Receiver) :
    (withReceiver s rx).shiftByte = withReceiver s.shiftByte rx := by
  unfold State.shiftByte withReceiver
  cases tx : s.lku.tx with
  | undriven | nothing => rfl
  | reply l | notice l | lost l => rcases l with _ | ⟨_, _ | ⟨_, _⟩⟩ <;> rfl

theorem shiftByte_rx (s : State) : s.shiftByte.lku.rx = s.lku.rx :=
  congrArg (·.lku.rx) (shiftByte_withReceiver s s.lku.rx)

theorem shiftByte_requests (s : State) : s.shiftByte.lku.requests = s.lku.requests := by
  unfold State.shiftByte
  split <;> rfl

theorem shifted_withReceiver (n : Nat) (rx : Receiver) (s : State) :
    (withReceiver s rx).shifted n = withReceiver (s.shifted n) rx := by
  induction n generalizing s with
  | zero => rfl
  | succ n ih =>
    show (withReceiver s rx).shiftByte.shifted n = _
    rw [shiftByte_withReceiver]
    exact ih s.shiftByte

theorem shifted_rx (n : Nat) (s : State) : (s.shifted n).lku.rx = s.lku.rx :=
  congrArg (·.lku.rx) (shifted_withReceiver n s.lku.rx s)

theorem shifted_requests (n : Nat) (s : State) : (s.shifted n).lku.requests = s.lku.requests := by
  induction n generalizing s with
  | zero => rfl
  | succ n ih => exact (ih s.shiftByte).trans (shiftByte_requests s)

theorem shifted_add (m n : Nat) (s : State) : s.shifted (m + n) = (s.shifted m).shifted n := by
  induction m generalizing s with
  | zero => rw [Nat.zero_add]; rfl
  | succ m ih =>
    rw [Nat.succ_add]
    exact ih s.shiftByte

theorem shifted_of_idle {s : State} (h : s.lku.tx = .undriven ∨ s.lku.tx = .nothing) (n : Nat) : s.shifted n = s := by
  induction n with
  | zero => rfl
  | succ n ih =>
    show s.shiftByte.shifted n = s
    rw [shiftByte_idle h, ih]

/-- 11 R170: the bytes of a message leave one by one, and the last one has the effect `sent`. -/
theorem shifted_message {message : List Byte → Outbound} {sent : State → State}
    (more : ∀ (t : State) a b rest, t.lku.tx = message (a :: b :: rest) →
      t.shiftByte = { t with lku.tx := message (b :: rest) })
    (last : ∀ (t : State) b, t.lku.tx = message [b] → t.shiftByte = sent t)
    (whole : ∀ (t : State) tx, sent { t with lku.tx := tx } = sent t)
    (bytes : List Byte) {s : State} (h : s.lku.tx = message bytes) (nonempty : bytes ≠ []) :
    s.shifted bytes.length = sent s := by
  induction bytes generalizing s with
  | nil => exact absurd rfl nonempty
  | cons a rest ih =>
    show s.shiftByte.shifted rest.length = sent s
    cases rest with
    | nil => exact last s a h
    | cons b rest =>
      rw [more s a b rest h, ih rfl nofun, whole]

/-! ### The bytes in (11 R172) -/

theorem receive_of_selected {s : State} (h : s.pins.lkSelected = true) (bytes : List Byte) :
    s.receive bytes = bytes.foldl State.clockByte s := if_pos h

/-- In HUNT every byte but the start byte passes unheard. -/
theorem clocked_of_hunt {s : State} (hunt : s.lku.rx = .hunt) {bytes : List Byte} (h : ∀ b ∈ bytes, b ≠ startByte) :
    bytes.foldl State.clockByte s = s.shifted bytes.length := by
  induction bytes generalizing s with
  | nil => rfl
  | cons b rest ih =>
    obtain ⟨other, others⟩ := List.forall_mem_cons.mp h
    have still : s.shiftByte.lku.rx = .hunt := (shiftByte_rx s).trans hunt
    have unheard : s.clockByte b = s.shiftByte := by
      unfold State.clockByte State.receiveByte
      rw [still]
      exact if_neg other
    show rest.foldl State.clockByte (s.clockByte b) = s.shiftByte.shifted rest.length
    rw [unheard]
    exact ih still others

theorem clockByte_start {s : State} (hunt : s.lku.rx = .hunt) :
    s.clockByte startByte = withReceiver s.shiftByte (.frame []) := by
  unfold State.clockByte State.receiveByte
  rw [(shiftByte_rx s).trans hunt]
  rfl

section
variable (s : State) {taken : List Byte} {b : Byte}

theorem clockByte_of_more (h : checkFrame (taken ++ [b]) = .more) :
    (withReceiver s (.frame taken)).clockByte b = withReceiver s.shiftByte (.frame (taken ++ [b])) := by
  unfold State.clockByte
  rw [shiftByte_withReceiver]
  unfold State.receiveByte withReceiver
  dsimp only
  rw [h]

theorem clockByte_of_bad (h : checkFrame (taken ++ [b]) = .bad) :
    (withReceiver s (.frame taken)).clockByte b = (withReceiver s.shiftByte .hunt).noteLinkError := by
  unfold State.clockByte
  rw [shiftByte_withReceiver]
  unfold State.receiveByte withReceiver
  dsimp only
  rw [h]
  rfl

theorem clockByte_of_good {r : Request} (h : checkFrame (taken ++ [b]) = .good r) :
    (withReceiver s (.frame taken)).clockByte b = (withReceiver s.shiftByte .hunt).takeRequest r := by
  unfold State.clockByte
  rw [shiftByte_withReceiver]
  unfold State.receiveByte withReceiver
  dsimp only
  rw [h]

end

/-! ### The check of a frame (11 R171, R172) -/

theorem checkFrame_more_iff {type tag len : Byte} {rest : List Byte} :
    checkFrame (type :: tag :: len :: rest) = .more ↔ len.toNat ≤ 240 ∧ rest.length < len.toNat + 2 := by
  unfold checkFrame
  dsimp only
  by_cases long : 240 < len.toNat
  · rw [if_pos long]
    exact ⟨nofun, fun ⟨short, _⟩ => absurd long (Nat.not_lt.mpr short)⟩
  · rw [if_neg long]
    by_cases cut : rest.length < len.toNat + 2
    · rw [if_pos cut]
      exact ⟨fun _ => ⟨Nat.not_lt.mp long, cut⟩, fun _ => rfl⟩
    · rw [if_neg cut]
      refine ⟨fun e => ?_, fun ⟨_, k⟩ => absurd k cut⟩
      split at e <;> cases e

/-- The beginning of an incomplete frame is an incomplete frame. -/
theorem checkFrame_more_of_append {front back : List Byte} (h : checkFrame (front ++ back) = .more) :
    checkFrame front = .more := by
  match front with
  | [] | [_] | [_, _] => rfl
  | type :: tag :: len :: rest =>
    have whole : checkFrame (type :: tag :: len :: (rest ++ back)) = .more := h
    obtain ⟨short, cut⟩ := checkFrame_more_iff.mp whole
    rw [List.length_append] at cut
    exact checkFrame_more_iff.mpr ⟨short, Nat.lt_of_le_of_lt (Nat.le_add_right _ _) cut⟩

/-- 11 R171: two bytes of a CRC, the most significant one first. -/
theorem fieldNat_pair (hi lo : Byte) : BitVec.ofNat 16 (fieldNat [hi, lo]) = hi ++ lo := by
  apply BitVec.eq_of_toNat_eq
  rw [BitVec.toNat_append, ← Nat.shiftLeft_add_eq_or_of_lt lo.isLt, Nat.shiftLeft_eq, BitVec.toNat_ofNat]
  have high := hi.isLt
  have low := lo.isLt
  simp only [fieldNat, List.foldl_cons, List.foldl_nil]
  omega

theorem crc_of_bytes (crc : BitVec 16) : crc.extractLsb' 8 8 ++ crc.extractLsb' 0 8 = crc :=
  BitVec.extractLsb'_append_extractLsb'_eq_extractLsb' (by rfl) |>.trans BitVec.extractLsb'_eq_self

section
variable (type tag hi lo : Byte) {body : List Byte} (short : body.length ≤ 240)
include short

theorem lengthByte_toNat : (BitVec.ofNat 8 body.length).toNat = body.length := by
  rw [BitVec.toNat_ofNat]
  omega

/-- A frame that lacks its last byte is incomplete. -/
theorem checkFrame_lacking_one : checkFrame (type :: tag :: BitVec.ofNat 8 body.length :: body ++ [hi]) = .more := by
  have cut : (body ++ [hi]).length < body.length + 2 := by simp
  refine checkFrame_more_iff.mpr ?_
  rw [lengthByte_toNat short]
  exact ⟨short, cut⟩

/-- 11 R172: with both of its bytes in, the CRC decides. -/
theorem checkFrame_complete : checkFrame (type :: tag :: BitVec.ofNat 8 body.length :: body ++ [hi] ++ [lo])
    = if crc16 (type :: tag :: BitVec.ofNat 8 body.length :: body) = hi ++ lo then
        .good { type := type, tag := tag, body := body }
      else .bad := by
  have complete : ¬ (body ++ [hi, lo]).length < body.length + 2 := by simp
  rw [List.append_assoc]
  show checkFrame (type :: tag :: BitVec.ofNat 8 body.length :: (body ++ [hi, lo])) = _
  unfold checkFrame
  dsimp only
  rw [lengthByte_toNat short, if_neg (Nat.not_lt.mpr short), if_neg complete, List.take_left, List.drop_left, fieldNat_pair]

end

/-! ### A whole frame -/

/-- The bytes of an incomplete frame are collected. -/
theorem clocked_of_more {taken bytes : List Byte} (s : State) (h : checkFrame (taken ++ bytes) = .more) :
    bytes.foldl State.clockByte (withReceiver s (.frame taken))
      = withReceiver (s.shifted bytes.length) (.frame (taken ++ bytes)) := by
  induction bytes generalizing s taken with
  | nil => rw [List.append_nil]; rfl
  | cons b rest ih =>
    rw [List.append_cons] at h ⊢
    rw [List.foldl_cons, clockByte_of_more s (checkFrame_more_of_append h)]
    exact ih s.shiftByte h

/-- Back in HUNT after its last byte, the part is as if nothing but the bytes out had happened. -/
theorem withReceiver_shifted {s : State} (hunt : s.lku.rx = .hunt) (n : Nat) :
    withReceiver (s.shifted n).shiftByte .hunt = s.shifted (n + 1) := by
  have next : (s.shifted n).shiftByte = s.shifted (n + 1) := (shifted_add n 1 s).symm
  rw [next, withReceiver_self ((shifted_rx _ s).trans hunt)]

section
variable {s : State} (hunt : s.lku.rx = .hunt) {front : List Byte} {last : Byte} (incomplete : checkFrame front = .more)
include hunt incomplete

/-- A frame up to its last byte, and that byte. -/
theorem clocked_to_last : (startByte :: (front ++ [last])).foldl State.clockByte s
    = (withReceiver (s.shifted (front.length + 1)) (.frame front)).clockByte last := by
  rw [List.foldl_cons, clockByte_start hunt, List.foldl_append, clocked_of_more (taken := []) s.shiftByte incomplete]
  rfl

theorem clocked_of_bad (bad : checkFrame (front ++ [last]) = .bad) :
    (startByte :: (front ++ [last])).foldl State.clockByte s = (s.shifted (front.length + 2)).noteLinkError := by
  rw [clocked_to_last hunt incomplete, clockByte_of_bad _ bad, withReceiver_shifted hunt]

theorem clocked_of_good {r : Request} (good : checkFrame (front ++ [last]) = .good r) :
    (startByte :: (front ++ [last])).foldl State.clockByte s = (s.shifted (front.length + 2)).takeRequest r := by
  rw [clocked_to_last hunt incomplete, clockByte_of_good _ good, withReceiver_shifted hunt]

end

/-! ### The settled statements -/

/-- Settles O47: the last byte of the discarded frame is its length byte, or the second byte of its CRC. -/
theorem badFrameDiscarded : Obligations.BadFrameDiscarded := by
  refine ⟨fun s type tag len selected hunt long => ?_, fun s type tag hi lo body selected hunt short wrong => ?_⟩
  · have bad : checkFrame ([type, tag] ++ [len]) = .bad := if_pos long
    exact congrArg Host.Outcome.next ((receive_of_selected selected _).trans (clocked_of_bad hunt rfl bad))
  · have bad := (checkFrame_complete type tag hi lo short).trans (if_neg wrong)
    have clocked := clocked_of_bad hunt (checkFrame_lacking_one type tag hi short) bad
    rw [List.append_assoc, List.length_append, List.length_singleton] at clocked
    exact congrArg Host.Outcome.next ((receive_of_selected selected _).trans clocked)

/-- 11 R171, R172: the frame of a request, after bytes that start none, hands the request on. -/
theorem receive_frameBytes {s : State} {idle : List Byte} (type tag : Byte) {body : List Byte}
    (selected : s.pins.lkSelected = true) (hunt : s.lku.rx = .hunt) (unheard : ∀ b ∈ idle, b ≠ startByte)
    (short : body.length ≤ 240) : s.receive (idle ++ frameBytes type tag body)
      = (s.shifted (idle.length + body.length + 6)).takeRequest { type := type, tag := tag, body := body } := by
  generalize covered : type :: tag :: BitVec.ofNat 8 body.length :: body = front
  have incomplete := checkFrame_lacking_one type tag ((crc16 front).extractLsb' 8 8) short
  have good := checkFrame_complete type tag ((crc16 front).extractLsb' 8 8) ((crc16 front).extractLsb' 0 8) short
  have length : front.length = body.length + 3 := by rw [← covered]; rfl
  have hunting : (s.shifted idle.length).lku.rx = .hunt := (shifted_rx _ s).trans hunt
  rw [covered] at incomplete good
  rw [if_pos (crc_of_bytes _).symm] at good
  have frame : frameBytes type tag body
      = startByte :: ((front ++ [(crc16 front).extractLsb' 8 8]) ++ [(crc16 front).extractLsb' 0 8]) := by
    rw [← covered, List.append_assoc]
    rfl
  rw [receive_of_selected selected, List.foldl_append, clocked_of_hunt hunt unheard, frame,
    clocked_of_good hunting incomplete good, List.length_append, List.length_singleton, length,
    ← shifted_add, Nat.add_assoc idle.length]

/-- Settles O46: the request that the receiver reads is taken as the room in the queues allows. -/
theorem frameOfRequestReceived : Obligations.FrameOfRequestReceived := by
  refine ⟨fun s u idle type tag body selected hunt unheard short shifted => ?_, fun s n idle => shifted_of_idle idle.symm n⟩
  have run : exec (.requestReceived (idle ++ frameBytes type tag body)) s
      = .next (u.takeRequest { type := type, tag := tag, body := body }) := by
    rw [shifted]
    exact congrArg Host.Outcome.next (receive_frameBytes type tag selected hunt unheard short)
  have queue : u.lku.requests = s.lku.requests := by rw [shifted, shifted_requests]
  rw [run, ← queue]
  unfold State.takeRequest
  refine ⟨fun room => ?_, fun full room => ?_, fun full taken => ?_⟩
  · exact congrArg Host.Outcome.next (if_pos room)
  · exact congrArg Host.Outcome.next ((if_neg (Nat.not_lt.mpr full)).trans (if_pos room))
  · exact congrArg Host.Outcome.next ((if_neg (Nat.not_lt.mpr full)).trans (if_neg (Nat.not_lt.mpr taken)))

/-- 11 R170, R177: the host that only reads clocks in no start byte. -/
theorem exec_messageSent {s : State} (selected : s.pins.lkSelected = true) (hunt : s.lku.rx = .hunt) :
    exec .messageSent s = .next (s.shifted s.lku.tx.left.length) := by
  have unheard : ∀ b ∈ s.lku.tx.left.map (fun _ => 0#8), b ≠ startByte := by
    intro b hb
    obtain ⟨_, _, rfl⟩ := List.mem_map.mp hb
    decide
  show Host.Outcome.next (s.receive _) = _
  rw [receive_of_selected selected, clocked_of_hunt hunt unheard, List.length_map]

theorem messageSent_of_message {s : State} {bytes : List Byte} (selected : s.pins.lkSelected = true)
    (hunt : s.lku.rx = .hunt) (nonempty : bytes ≠ []) :
    (s.lku.tx = .reply bytes → exec .messageSent s = .next { s with lku.replies := s.lku.replies.tail, lku.tx := .nothing })
    ∧ (s.lku.tx = .notice bytes →
      exec .messageSent s = .next { s with lku.notices := s.lku.notices.tail, lku.tx := .nothing })
    ∧ (s.lku.tx = .lost bytes → exec .messageSent s = .next { s with lku.tx := .nothing }) := by
  rw [exec_messageSent selected hunt]
  refine ⟨fun h => ?_, fun h => ?_, fun h => ?_⟩ <;> rw [h] <;> refine congrArg Host.Outcome.next ?_
  · exact shifted_message (message := .reply) (sent := fun t => { t with lku.replies := t.lku.replies.tail, lku.tx := .nothing })
      (fun _ _ _ _ => shiftByte_more.1) (fun _ _ => shiftByte_last.1) (fun _ _ => rfl) bytes h nonempty
  · exact shifted_message (message := .notice) (sent := fun t => { t with lku.notices := t.lku.notices.tail, lku.tx := .nothing })
      (fun _ _ _ _ => shiftByte_more.2.1) (fun _ _ => shiftByte_last.2.1) (fun _ _ => rfl) bytes h nonempty
  · exact shifted_message (message := .lost) (sent := fun t => { t with lku.tx := .nothing })
      (fun _ _ _ _ => shiftByte_more.2.2) (fun _ _ => shiftByte_last.2.2) (fun _ _ => rfl) bytes h nonempty

theorem exec_linkTransactionEnd_nil {s : State} (selected : s.pins.lkSelected = true) :
    exec (.linkTransactionEnd []) s = .next { s.cutInbound with pins.lkSelected := false, lku.tx := .undriven } := by
  have nothing : s.receive [] = s := receive_of_selected selected []
  show execLinkTransactionEnd [] s = _
  unfold execLinkTransactionEnd
  rw [if_pos selected, nothing]

theorem cutInbound_of_hunt {s : State} (h : s.lku.rx = .hunt) : s.cutInbound = s := by
  unfold State.cutInbound
  rw [h]

theorem cutInbound_of_frame {s : State} {bytes : List Byte} (h : s.lku.rx = .frame bytes) :
    s.cutInbound = s.discardInbound := by
  unfold State.cutInbound
  rw [h]

/-- 11 R170: the oldest reply goes before the oldest notice. -/
theorem selected_cases (l : Lku) : (∀ r rest, l.replies = r :: rest → l.selected = .reply r.bytes)
    ∧ (∀ n rest, l.replies = [] → l.notices = n :: rest → l.selected = .notice n.bytes)
    ∧ (l.replies = [] → l.notices = [] → l.selected = .nothing) := by
  unfold Lku.selected
  refine ⟨fun r rest h => ?_, fun n rest h k => ?_, fun h k => ?_⟩
  · rw [h]
  · rw [h, k]
  · rw [h, k]

theorem attn_iff (s : State) : s.attn = true ↔ s.lku.replies ≠ [] ∨ s.lku.notices ≠ [] := by
  simp [State.attn]

/-- Settles O45: selection, the bytes out, the two ends of a transaction, the notice queue and ATTN. -/
theorem transactionsMoveMessages : Obligations.TransactionsMoveMessages := by
  refine ⟨fun s idle => ?_, fun b b' rest => ?_, fun s bytes selected hunt nonempty => messageSent_of_message selected hunt nonempty,
    fun s selected hunt => ?_, fun s bytes selected frame => ?_, fun s body => ⟨fun room => ?_, fun full => ?_⟩, attn_iff⟩
  · exact ⟨_, if_neg (by rw [idle]; decide), rfl, selected_cases s.lku⟩
  · exact ⟨rfl, rfl, rfl, rfl, rfl, fun s => ⟨shiftByte_more.1, shiftByte_more.2.1, shiftByte_more.2.2, shiftByte_last.1,
      shiftByte_last.2.1, shiftByte_last.2.2, fun idle => shiftByte_idle idle.symm⟩⟩
  · rw [exec_linkTransactionEnd_nil selected, cutInbound_of_hunt hunt]
  · rw [exec_linkTransactionEnd_nil selected, cutInbound_of_frame frame]
    rfl
  · exact if_pos room
  · exact if_neg (Nat.not_lt.mpr full)

end Sys2Proof.Proofs
end

section
/-! FAULT.CLEAR (11 R180): the settled O50. -/
namespace Sys2Proof.Proofs
open Sys2Proof.Machine

section
variable {s : State} {tag : Byte} {rest : List Request}

/-- 11 R180: the body that names one condition. -/
theorem faultClearBody_one (place : Byte) :
    faultClearBody [1#8, place] = if place.toNat ≤ 2 then some [place.toNat] else none := by
  simp [faultClearBody]

theorem exec_faultClear_of_bad {body : List Byte} (h : s.Executes 0x03#8 tag body rest) (bad : faultClearBody body = none) :
    exec .faultClear s = .next (s.answeredOnly rest 0x83#8 tag (.result .badField)) := by
  have run : exec .faultClear s = .next _ := execute_of_executes h s.faultClear
  rw [run]
  unfold State.faultClear
  rw [bad]
  exact congrArg Host.Outcome.next (answer_of_requests h.2 _ (by decide))

theorem exec_faultClear_of_halted {body : List Byte} {names : List Nat} (h : s.Executes 0x03#8 tag body rest)
    (read : faultClearBody body = some names) (halted : names.contains 0 = true) :
    exec .faultClear s = .next (s.answeredOnly rest 0x83#8 tag (.result .wrongState)) := by
  have run : exec .faultClear s = .next _ := execute_of_executes h s.faultClear
  rw [run]
  unfold State.faultClear
  rw [read]
  exact congrArg Host.Outcome.next ((if_pos halted).trans (answer_of_requests h.2 _ (by decide)))

/-- 11 R180: without OUTPUT_HALTED the named conditions are cleared, and the reply gives what is left. -/
theorem exec_faultClear_of_others {body : List Byte} {names : List Nat} (h : s.Executes 0x03#8 tag body rest)
    (read : faultClearBody body = some names) (others : names.contains 0 = false) :
    exec .faultClear s = .next { s with
      lku := { (s.lku.answered rest 0x83#8 tag (.conditions (names.foldl Conditions.clear s.lku.conds))) with
        conds := names.foldl Conditions.clear s.lku.conds } } := by
  have run : exec .faultClear s = .next _ := execute_of_executes h s.faultClear
  rw [run]
  unfold State.faultClear
  rw [read]
  exact congrArg Host.Outcome.next ((if_neg (by rw [others]; decide)).trans
    (answer_of_requests (s := { s with lku.conds := names.foldl Conditions.clear s.lku.conds }) h.2 _ (by decide)))

end

/-- Settles O50: a set is malformed, or holds OUTPUT_HALTED, or is cleared name by name. -/
theorem faultsCleared : Obligations.FaultsCleared := by
  refine ⟨fun s tag place rest h => ⟨fun noCondition => ?_, ?_, ?_, ?_⟩, fun s tag rest h => ?_⟩
  · exact exec_faultClear_of_bad h ((faultClearBody_one place).trans (if_neg (Nat.not_le.mpr noCondition)))
  · rintro rfl
    exact exec_faultClear_of_halted (names := [0]) h (faultClearBody_one 0#8) (by decide)
  · rintro rfl
    exact exec_faultClear_of_others (names := [1]) h (faultClearBody_one 1#8) (by decide)
  · rintro rfl
    exact exec_faultClear_of_others (names := [2]) h (faultClearBody_one 2#8) (by decide)
  · exact exec_faultClear_of_others (names := []) h rfl (by decide)

end Sys2Proof.Proofs
end

section
/-! What every command does to the store controller (12 R184, R185, R187, R189): requests stage a record or start a burn that the shadow allows, a load takes the store into the shadow, and the end of a burn changes the store: the settled O10 and O13. -/
namespace Sys2Proof.Proofs
open Sys2Proof.Machine

theorem answer_psc (s : State) (b : ReplyBody) : (s.answer b).psc = s.psc := (answer_frame s b).psc (by decide)

/-! ### Requests that stage or burn (12 R186 to R188) -/

/-- 12 R187: the shadow allows a burn of a slot. -/
def Allows (shadow : Shadow) (i : Fin 4) : Prop := shadow.mask.getLsbD i.val = false ∧ (i = 0 → shadow.locked = false)

/-- From `s` to `t` of the store controller the stage buffer and the burn alone may change, and a new burn is one that the shadow allows. -/
def StagesOrBurns (s t : State) : Prop := ∃ stage burn, t.psc = { s.psc with stage := stage, burn := burn }
  ∧ (burn = s.psc.burn ∨ ∀ i f, burn = some (.profile i f) → Allows s.psc.shadow i)

theorem StagesOrBurns.of_psc {s t : State} (h : t.psc = s.psc) : StagesOrBurns s t := ⟨s.psc.stage, s.psc.burn, h, .inl rfl⟩

theorem answer_stagesOrBurns (s : State) (b : ReplyBody) : StagesOrBurns s (s.answer b) := .of_psc (answer_psc s b)

theorem startBurn_psc (s : State) (job : BurnJob) : (s.startBurn job).psc = { s.psc with burn := some job } := answer_psc _ _

theorem startBurn_stagesOrBurns {s : State} {job : BurnJob} (h : ∀ i f, job = .profile i f → Allows s.psc.shadow i) :
    StagesOrBurns s (s.startBurn job) :=
  ⟨s.psc.stage, some job, startBurn_psc s job, .inr (fun i f e => h i f (Option.some.inj e))⟩

theorem profileStage_stagesOrBurns (s : State) (body : List Byte) : StagesOrBurns s (s.profileStage body) := by
  unfold State.profileStage
  split
  · exact answer_stagesOrBurns s _
  · split
    · exact answer_stagesOrBurns s _
    · next f _ => exact ⟨some f, s.psc.burn, answer_psc _ _, .inl rfl⟩

/-- 12 R187: the checks of PROFILE.BURN pass for an allowed slot only. -/
theorem profileBurn_stagesOrBurns (s : State) (body : List Byte) : StagesOrBurns s (s.profileBurn body) := by
  unfold State.profileBurn
  split
  · exact answer_stagesOrBurns s _
  · next slot _ =>
    split
    · exact answer_stagesOrBurns s _
    · refine iteInduction (fun _ => answer_stagesOrBurns s _) (fun free => ?_)
      refine iteInduction (fun _ => answer_stagesOrBurns s _) (fun unlocked => ?_)
      refine iteInduction (fun _ => answer_stagesOrBurns s _) (fun _ => ?_)
      refine iteInduction (fun _ => answer_stagesOrBurns s _) (fun _ => startBurn_stagesOrBurns ?_)
      rintro _ _ ⟨⟩
      exact ⟨Bool.eq_false_iff.mpr free, fun zero => Bool.eq_false_iff.mpr (fun locked => unlocked ⟨zero, locked⟩)⟩

theorem protectionBurn_stagesOrBurns (s : State) {job : BurnJob} (h : ∀ i f, job ≠ .profile i f) :
    StagesOrBurns s (s.protectionBurn job) := by
  unfold State.protectionBurn
  refine iteInduction (fun _ => answer_stagesOrBurns s _) (fun _ => ?_)
  refine iteInduction (fun _ => answer_stagesOrBurns s _) (fun _ => ?_)
  exact iteInduction (fun _ => answer_stagesOrBurns s _) (fun _ => startBurn_stagesOrBurns (fun i f e => absurd e (h i f)))

theorem profileProtect_stagesOrBurns (s : State) (body : List Byte) : StagesOrBurns s (s.profileProtect body) := by
  unfold State.profileProtect
  split
  · exact answer_stagesOrBurns s _
  · exact protectionBurn_stagesOrBurns s nofun

theorem execute_stagesOrBurns {s : State} {type : Byte} {handle : List Byte → State}
    (h : ∀ body, StagesOrBurns s (handle body)) : LeadsTo (s.execute type handle) (StagesOrBurns s) :=
  execute_leadsTo (.of_psc rfl) h

theorem exec_profileLock_stagesOrBurns (s : State) : LeadsTo (exec .profileLock s) (StagesOrBurns s) := by
  show LeadsTo (execProfileLock s) _
  refine execute_stagesOrBurns (fun body => ?_)
  rcases withoutFields_cases s (s.protectionBurn (.lock { mask := s.psc.shadow.mask, locked := true })) body
    with e | ⟨b, e⟩ <;> rw [e]
  · exact protectionBurn_stagesOrBurns s nofun
  · exact answer_stagesOrBurns s b

/-- Every command but a load, the end of a burn and pin reset. -/
theorem exec_stagesOrBurns {c : Instr} (load : c ≠ .profileReload) (complete : ∀ f, c ≠ .burnComplete f)
    (reset : c ≠ .pinReset) (s : State) : LeadsTo (exec c s) (StagesOrBurns s) := by
  by_cases outside : Block.psc ∉ touches c
  · exact (exec_touches c s).mono (fun _ f => .of_psc (f.psc outside))
  cases c with
  | profileStage => exact execute_stagesOrBurns (profileStage_stagesOrBurns s)
  | profileBurn => exact execute_stagesOrBurns (profileBurn_stagesOrBurns s)
  | profileProtect => exact execute_stagesOrBurns (profileProtect_stagesOrBurns s)
  | profileLock => exact exec_profileLock_stagesOrBurns s
  | profileReload => exact absurd rfl load
  | burnComplete found => exact absurd rfl (complete found)
  | pinReset => exact absurd rfl reset
  | _ => simp [touches, settleBlocks] at outside

/-! ### A load (12 R185) -/

/-- From `s` to `t` the shadow alone changed, while no burn runs, or nothing of the store controller. -/
def LoadsOrStays (s t : State) : Prop :=
  t.psc = s.psc ∨ s.psc.burn = none ∧ t.psc = { s.psc with shadow := loadShadow s.psc }

theorem profileReload_loadsOrStays (s : State) : LoadsOrStays s s.profileReload := by
  unfold State.profileReload
  refine iteInduction (fun _ => .inl (answer_psc s _)) (fun rests => ?_)
  refine iteInduction (fun _ => .inl (answer_psc s _)) (fun _ => .inr ⟨?_, (answer_psc _ _).trans (load_psc s)⟩)
  exact Option.not_isSome_iff_eq_none.mp rests

theorem exec_profileReload_loadsOrStays (s : State) : LeadsTo (exec .profileReload s) (LoadsOrStays s) := by
  show LeadsTo (execProfileReload s) _
  refine execute_leadsTo (.inl rfl) (fun body => ?_)
  rcases withoutFields_cases s s.profileReload body with e | ⟨b, e⟩ <;> rw [e]
  · exact profileReload_loadsOrStays s
  · exact .inl (answer_psc s b)

/-! ### The end of a burn (12 R189) -/

/-- From `s` to `t` a burn ended and the shadow stayed, or nothing of the store controller changed. -/
def EndsBurnOrStays (s t : State) : Prop := t.psc = s.psc ∨ t.psc.burn = none ∧ t.psc.shadow = s.psc.shadow

theorem burnFailed_psc (s : State) (job : BurnJob) : (s.burnFailed job).psc = { s.psc with burn := none } :=
  (notify_frame _ _).psc (by decide)

theorem burnMatched_profile_psc (s : State) (i : Fin 4) (f : ProfileFields) : (s.burnMatched (.profile i f)).psc
    = { s.psc with profiles := s.psc.profiles.set i { fields := f, crc := profileCrc f }, stage := none, burn := none } :=
  (notify_frame _ _).psc (by decide)

theorem burnMatched_protection_psc (s : State) {job : BurnJob} {f : ProtectionFields} (h : job = .protect f ∨ job = .lock f) :
    (s.burnMatched job).psc
      = { s.psc with protection := { fields := f, crc := protectionCrc f }, burn := none } := by
  rcases h with rfl | rfl <;> exact (notify_frame _ _).psc (by decide)

theorem burnMatched_ends (s : State) (job : BurnJob) : EndsBurnOrStays s (s.burnMatched job) := by
  refine .inr ?_
  cases job with
  | profile i f => rw [burnMatched_profile_psc]; exact ⟨rfl, rfl⟩
  | protect f => rw [burnMatched_protection_psc s (.inl rfl)]; exact ⟨rfl, rfl⟩
  | lock f => rw [burnMatched_protection_psc s (.inr rfl)]; exact ⟨rfl, rfl⟩

/-- The record as found is stored before a burn fails. -/
theorem burnFailed_ends {s t : State} (shadow : t.psc.shadow = s.psc.shadow) (job : BurnJob) :
    EndsBurnOrStays s (t.burnFailed job) := by
  refine .inr ?_
  rw [burnFailed_psc]
  exact ⟨rfl, shadow⟩

theorem exec_burnComplete_ends (found : ReadBack) (s : State) :
    LeadsTo (exec (.burnComplete found) s) (EndsBurnOrStays s) := by
  have profile (job : BurnJob) (i : Fin 4) (meant f : ProfileFields) (crc : BitVec 16) :
      EndsBurnOrStays s (s.profileReadBack job i meant f crc) :=
    iteInduction (fun _ => burnMatched_ends s job) (fun _ => burnFailed_ends (by rfl) job)
  have protection (job : BurnJob) (meant f : ProtectionFields) (crc : BitVec 16) :
      EndsBurnOrStays s (s.protectionReadBack job meant f crc) :=
    iteInduction (fun _ => burnMatched_ends s job) (fun _ => burnFailed_ends (by rfl) job)
  show LeadsTo (execBurnComplete found s) _
  unfold execBurnComplete
  split
  · exact .next (.inl rfl)
  · next job _ =>
    split
    · exact .next (burnMatched_ends s job)
    · exact .next (profile _ _ _ _ _)
    · exact .next (protection _ _ _ _)
    · exact .next (protection _ _ _ _)
    all_goals exact .next (.inl rfl)

/-- 12 R184: after pin reset no burn runs. -/
theorem exec_pinReset_burn (s : State) : LeadsTo (exec .pinReset s) (fun t => t.psc.burn = none) := by
  rw [exec_pinReset]
  refine .next ?_
  rw [load_psc, pinCleared_psc]
  rfl

/-! ### The settled statements -/

theorem burnAllowed_of_noBurn {t : State} (h : t.psc.burn = none) : t.BurnAllowed :=
  fun _ _ burn => nomatch h.symm.trans burn

theorem burnAllowed_of_psc {s t : State} (h : t.psc = s.psc) (allowed : s.BurnAllowed) : t.BurnAllowed := by
  unfold State.BurnAllowed
  rw [h]
  exact allowed

theorem StagesOrBurns.burnAllowed {s t : State} (h : StagesOrBurns s t) (allowed : s.BurnAllowed) : t.BurnAllowed := by
  obtain ⟨stage, burn, psc, rule⟩ := h
  unfold State.BurnAllowed
  rw [psc]
  intro i f running
  rcases rule with same | new
  · exact allowed i f (same.symm.trans running)
  · exact new i f running

theorem exec_burnAllowed (c : Instr) {s : State} (allowed : s.BurnAllowed) : LeadsTo (exec c s) State.BurnAllowed := by
  by_cases load : c = .profileReload
  · subst load
    refine (exec_profileReload_loadsOrStays s).mono (fun t h => ?_)
    rcases h with same | ⟨rests, psc⟩
    · exact burnAllowed_of_psc same allowed
    · exact burnAllowed_of_noBurn ((congrArg Psc.burn psc).trans rests)
  by_cases complete : ∃ f, c = .burnComplete f
  · obtain ⟨f, rfl⟩ := complete
    refine (exec_burnComplete_ends f s).mono (fun t h => ?_)
    rcases h with same | ⟨ended, _⟩
    · exact burnAllowed_of_psc same allowed
    · exact burnAllowed_of_noBurn ended
  by_cases reset : c = .pinReset
  · subst reset
    exact (exec_pinReset_burn s).mono (fun _ ended => burnAllowed_of_noBurn ended)
  · exact (exec_stagesOrBurns load (fun f e => complete ⟨f, e⟩) reset s).mono (fun _ h => h.burnAllowed allowed)

/-- Settles O10: a step is a command at the front of the queue or a tick of the strip output port. -/
theorem burnAllowedKept : Obligations.BurnAllowedKept := by
  intro s t allowed run
  unfold step at run
  split at run
  · cases run
    exact burnAllowed_of_psc ((tick_frame s).psc (by decide)) allowed
  · next c rest _ => exact exec_burnAllowed c (s := { s with pending := rest }) allowed t run

/-- Settles O13: a request stages a record or starts a burn, a load changes the shadow alone, and the end of a burn leaves the shadow. -/
theorem storeAndShadowChange : Obligations.StoreAndShadowChange := by
  refine ⟨fun c s t complete reset run => ?_, fun c s t load reset run => ?_⟩
  · by_cases load : c = .profileReload
    · subst load
      rcases exec_profileReload_loadsOrStays s t run with psc | ⟨_, psc⟩ <;> rw [psc] <;> exact ⟨rfl, rfl⟩
    · obtain ⟨_, _, psc, _⟩ := exec_stagesOrBurns load complete reset s t run
      rw [psc]
      exact ⟨rfl, rfl⟩
  · by_cases complete : ∃ f, c = .burnComplete f
    · obtain ⟨f, rfl⟩ := complete
      rcases exec_burnComplete_ends f s t run with psc | ⟨_, shadow⟩
      · rw [psc]
      · exact shadow
    · obtain ⟨_, _, psc, _⟩ := exec_stagesOrBurns load (fun f e => complete ⟨f, e⟩) reset s t run
      rw [psc]

end Sys2Proof.Proofs
end

section
/-! The requests of the profile store and the end of a burn, case by case (12 R185 to R190): the settled O56, O57, O58 and O59. -/
namespace Sys2Proof.Proofs
open Sys2Proof.Machine

/-! ### What a dispatched request is answered (11 R173) -/

section
variable {s : State} {type tag rt : Byte} {body : List Byte} {rest : List Request}
  (h : s.lku.requests = { type := type, tag := tag, body := body } :: rest) (reply : replyType type = rt)
include h reply

theorem answerCode_of_requests (code : ResultCode) : s.answerCode code = s.answeredOnly rest rt tag (.result code) :=
  answer_of_requests h _ reply

theorem startBurn_of_requests (job : BurnJob) :
    s.startBurn job = { (s.answeredOnly rest rt tag (.result .ok)) with psc.burn := some job } :=
  answer_of_requests (s := { s with psc.burn := some job }) h _ reply

/-- 12 R188: the checks that PROTECT and LOCK share. -/
theorem protectionBurn_of_requests (job : BurnJob) : s.protectionBurn job =
    if s.psc.shadow.locked then s.answeredOnly rest rt tag (.result .isLocked)
    else if s.swc.state ≠ .idle then s.answeredOnly rest rt tag (.result .wrongState)
    else if s.psc.burn.isSome then s.answeredOnly rest rt tag (.result .busy)
    else { (s.answeredOnly rest rt tag (.result .ok)) with psc.burn := some job } := by
  simp only [State.protectionBurn, State.burning, answerCode_of_requests h reply, startBurn_of_requests h reply]

end

/-! ### PROFILE.STAGE (12 R186) -/

/-- 11 R171: the four fields of a profile record, one after the other. -/
theorem profileBytes_fields (f : ProfileFields) : (profileBytes f).length = 9 ∧ (profileBytes f).take 3 = field 3 f.f16
    ∧ ((profileBytes f).drop 3).take 2 = field 2 f.cxOff ∧ ((profileBytes f).drop 5).take 2 = field 2 f.cyOff
    ∧ (profileBytes f).drop 7 = field 2 f.textureMin := by
  have bytes : profileBytes f
      = field 3 f.f16 ++ (field 2 f.cxOff ++ (field 2 f.cyOff ++ field 2 f.textureMin)) := by
    rw [profileBytes, List.append_assoc, List.append_assoc]
  have after3 : (profileBytes f).drop 3 = field 2 f.cxOff ++ (field 2 f.cyOff ++ field 2 f.textureMin) := by
    rw [bytes]
    exact List.drop_left' (field_length 3 _)
  have after5 : (profileBytes f).drop 5 = field 2 f.cyOff ++ field 2 f.textureMin := by
    rw [← List.drop_drop (i := 2) (j := 3), after3]
    exact List.drop_left' (field_length 2 _)
  refine ⟨by simp [profileBytes], ?_, ?_, ?_, ?_⟩
  · rw [bytes]
    exact List.take_left' (field_length 3 _)
  · rw [after3]
    exact List.take_left' (field_length 2 _)
  · rw [after5]
    exact List.take_left' (field_length 2 _)
  · rw [← List.drop_drop (i := 2) (j := 5), after5]
    exact List.drop_left' (field_length 2 _)

/-- 12 R186: a record within its fields' bytes is read back, and its ranges are checked in the order of the body. -/
theorem stageBody_profileBytes {f : ProfileFields} (fits : f.fits = true) : stageBody (profileBytes f) =
    if f.f16 < 1 ∨ 1048575 < f.f16 then .error (some 0)
    else if f.cxOff < -16384 ∨ 16384 < f.cxOff then .error (some 1)
    else if f.cyOff < -16384 ∨ 16384 < f.cyOff then .error (some 2)
    else .ok f := by
  obtain ⟨length, take3, cxBytes, cyBytes, drop7⟩ := profileBytes_fields f
  simp only [ProfileFields.fits, Bool.and_eq_true, decide_eq_true_eq] at fits
  obtain ⟨⟨⟨f16Fits, cxLo, cxHi⟩, cyLo, cyHi⟩, textureFits⟩ := fits
  have f16 : fieldNat (field 3 f.f16) = f.f16 := fieldNat_of_lt (by omega)
  have texture : fieldNat (field 2 f.textureMin) = f.textureMin := fieldNat_of_lt (by omega)
  have cx : fieldInt (field 2 f.cxOff) = f.cxOff := fieldInt_of_range (by omega) (by omega)
  have cy : fieldInt (field 2 f.cyOff) = f.cyOff := fieldInt_of_range (by omega) (by omega)
  unfold stageBody
  rw [length, take3, cxBytes, cyBytes, drop7, f16, cx, cy, texture]
  simp only [Nat.reduceLT, Nat.lt_irrefl, false_or, if_false]

/-- Settles O56: a burn keeps the stage buffer busy; else the bytes of the body are the record, and its ranges decide. -/
theorem profileStaged : Obligations.ProfileStaged := by
  refine ⟨fun s tag body rest h burn => ?_, fun s tag rest f fits h rests => ?_⟩
  · have run : exec .profileStage s = .next _ := execute_of_executes h s.profileStage
    rw [run, State.profileStage, State.burning, if_pos burn]
    exact congrArg Host.Outcome.next (answerCode_of_requests h.2 (by decide) _)
  · have run : exec .profileStage s = .next _ := execute_of_executes h s.profileStage
    have refused (place : Option Nat) : s.answer (.refusedField .badField place) = _ :=
      answer_of_requests h.2 _ (rt := 0xB1#8) (by decide)
    have staged : ({ s with psc.stage := some f } : State).answerCode .ok = _ :=
      answerCode_of_requests (s := { s with psc.stage := some f }) h.2 (rt := 0xB1#8) (by decide) .ok
    rw [run, State.profileStage, State.burning, rests, if_neg (by decide), stageBody_profileBytes fits]
    refine congrArg Host.Outcome.next ?_
    by_cases f16 : f.f16 < 1 ∨ 1048575 < f.f16
    · rw [if_pos f16, if_pos f16]
      exact refused _
    rw [if_neg f16, if_neg f16]
    by_cases cx : f.cxOff < -16384 ∨ 16384 < f.cxOff
    · rw [if_pos cx, if_pos cx]
      exact refused _
    rw [if_neg cx, if_neg cx]
    by_cases cy : f.cyOff < -16384 ∨ 16384 < f.cyOff
    · rw [if_pos cy, if_pos cy]
      exact refused _
    rw [if_neg cy, if_neg cy]
    exact staged

/-! ### PROFILE.BURN, PROFILE.PROTECT and PROFILE.LOCK (12 R187, R188) -/

theorem profileSlotBody_slot : ∀ i : Fin 4, profileSlotBody [BitVec.ofNat 8 i.val] = some i := by decide

theorem profileSlotBody_none {slot : Byte} (h : 4 ≤ slot.toNat) : profileSlotBody [slot] = none :=
  dif_neg (Nat.not_lt.mpr h)

section
variable {s : State} {tag : Byte} {rest : List Request}

theorem exec_profileBurn_of_slot {body : List Byte} {i : Fin 4} (h : s.Executes 0x32#8 tag body rest)
    (read : profileSlotBody body = some i) : exec .profileBurn s = .next (match s.psc.stage with
      | none => s.answeredOnly rest 0xB2#8 tag (.result .notStaged)
      | some f =>
        if s.psc.shadow.mask.getLsbD i.val then s.answeredOnly rest 0xB2#8 tag (.result .isProtected)
        else if i = 0 ∧ s.psc.shadow.locked = true then s.answeredOnly rest 0xB2#8 tag (.result .isLocked)
        else if s.swc.state ≠ .idle then s.answeredOnly rest 0xB2#8 tag (.result .wrongState)
        else if s.psc.burn.isSome then s.answeredOnly rest 0xB2#8 tag (.result .busy)
        else { (s.answeredOnly rest 0xB2#8 tag (.result .ok)) with psc.burn := some (.profile i f) }) := by
  have run : exec .profileBurn s = .next _ := execute_of_executes h s.profileBurn
  have reply : replyType 0x32#8 = 0xB2#8 := by decide
  rw [run]
  cases staged : s.psc.stage <;>
    simp only [State.profileBurn, State.burning, read, staged, answerCode_of_requests h.2 reply,
      startBurn_of_requests h.2 reply]

theorem exec_profileProtect_of_executes {m : Byte} (h : s.Executes 0x33#8 tag [m] rest) :
    exec .profileProtect s = .next (
      if 16 ≤ m.toNat then s.answeredOnly rest 0xB3#8 tag (.result .badField)
      else s.protectionBurn (.protect { mask := m.setWidth 4, locked := false })) := by
  have run : exec .profileProtect s = .next _ := execute_of_executes h s.profileProtect
  rw [run, State.profileProtect, protectBody]
  by_cases wide : 16 ≤ m.toNat
  · rw [if_neg (Nat.not_lt.mpr wide), if_pos wide]
    exact congrArg Host.Outcome.next (answerCode_of_requests h.2 (by decide) _)
  · rw [if_pos (Nat.not_le.mp wide), if_neg wide]

end

/-- Settles O57: each request's checks, with the answers of a dispatched request put in. -/
theorem burnRequestsChecked : Obligations.BurnRequestsChecked := by
  refine ⟨fun s tag slot rest h => ⟨fun noSlot => ?_, fun i name => ?_⟩, fun s tag rest m h => ?_, fun s tag rest h => ?_⟩
  · have run : exec .profileBurn s = .next _ := execute_of_executes h s.profileBurn
    rw [run, State.profileBurn, profileSlotBody_none noSlot]
    exact congrArg Host.Outcome.next (answerCode_of_requests h.2 (by decide) _)
  · exact exec_profileBurn_of_slot h (name ▸ profileSlotBody_slot i)
  · rw [exec_profileProtect_of_executes h, protectionBurn_of_requests h.2 (rt := 0xB3#8) (by decide)]
  · have run : exec .profileLock s = .next _ := execute_of_executes h (fun body => s.withoutFields body
      (s.protectionBurn (.lock { mask := s.psc.shadow.mask, locked := true })))
    rw [run, withoutFields_nil, protectionBurn_of_requests h.2 (rt := 0xB4#8) (by decide)]

/-! ### PROFILE.RELOAD and PROFILE.READ (12 R185, R190) -/

section
variable {s : State} {tag : Byte} {rest : List Request}

theorem exec_profileReload_of_executes (h : s.Executes 0x35#8 tag [] rest) :
    exec .profileReload s = .next s.profileReload :=
  execute_of_executes h (fun body => s.withoutFields body s.profileReload)

theorem profileReload_of_idle (rests : s.psc.burn = none) (idle : s.swc.state = .idle) :
    s.profileReload = s.load.answer (.shadow s.load.psc.shadow) := by
  unfold State.profileReload State.burning
  rw [rests, if_neg (by decide), if_neg (not_not_intro idle)]

theorem answer_conds (s : State) (b : ReplyBody) : (s.answer b).lku.conds = s.lku.conds := by
  unfold State.answer
  split <;> rfl

theorem load_conds (bad : badStore s.psc = true) : s.load.lku.conds.profileBad = true := by
  rw [load_lku, bad]
  rfl

theorem profileReadBody_slot (i : Fin 4) : profileReadBody [BitVec.ofNat 8 i.val] = some (.slot i) := by
  revert i
  decide

/-- 12 R190: a name is a slot, or 4 for the protection record, or neither. -/
theorem profileReadBody_isSome_iff (name : Byte) : (profileReadBody [name]).isSome = true ↔ name.toNat ≤ 4 := by
  unfold profileReadBody
  by_cases protection : name = 4#8
  · subst protection
    decide
  · have other : name.toNat ≠ 4 := fun e => protection (BitVec.eq_of_toNat_eq e)
    rw [if_neg (by simpa using protection), profileSlotBody, Option.isSome_map]
    by_cases slot : name.toNat < 4
    · rw [dif_pos slot]
      exact iff_of_true rfl (Nat.le_of_lt slot)
    · rw [dif_neg slot]
      exact iff_of_false nofun (by omega)

theorem profileRead_of_none {body : List Byte} (h : s.Executes 0x30#8 tag body rest) (read : profileReadBody body = none) :
    exec .profileRead s = .next (s.answeredOnly rest 0xB0#8 tag (.result .badField)) := by
  have run : exec .profileRead s = .next _ := execute_of_executes h s.profileRead
  rw [run, State.profileRead, read]
  exact congrArg Host.Outcome.next (answerCode_of_requests h.2 (by decide) _)

theorem profileRead_of_burn {body : List Byte} (h : s.Executes 0x30#8 tag body rest)
    (read : (profileReadBody body).isSome = true) (burn : s.psc.burn.isSome = true) :
    exec .profileRead s = .next (s.answeredOnly rest 0xB0#8 tag (.result .busy)) := by
  have run : exec .profileRead s = .next _ := execute_of_executes h s.profileRead
  obtain ⟨target, named⟩ := Option.isSome_iff_exists.mp read
  rw [run, State.profileRead, named]
  exact congrArg Host.Outcome.next ((if_pos burn).trans (answerCode_of_requests h.2 (by decide) _))

theorem profileRead_of_slot {body : List Byte} {i : Fin 4} (h : s.Executes 0x30#8 tag body rest)
    (read : profileReadBody body = some (.slot i)) (rests : s.psc.burn = none) :
    exec .profileRead s = .next (s.answeredOnly rest 0xB0#8 tag (.profile s.psc.profiles[i].fields
      (decide (s.psc.profiles[i].crc = profileCrc s.psc.profiles[i].fields)))) := by
  have run : exec .profileRead s = .next _ := execute_of_executes h s.profileRead
  rw [run, State.profileRead, read, State.burning, rests]
  exact congrArg Host.Outcome.next (answer_of_requests h.2 _ (by decide))

theorem profileRead_of_protection {body : List Byte} (h : s.Executes 0x30#8 tag body rest)
    (read : profileReadBody body = some .protection) (rests : s.psc.burn = none) :
    exec .profileRead s = .next (s.answeredOnly rest 0xB0#8 tag (.protection s.psc.protection.fields
      (decide (s.psc.protection.crc = protectionCrc s.psc.protection.fields)))) := by
  have run : exec .profileRead s = .next _ := execute_of_executes h s.profileRead
  rw [run, State.profileRead, read, State.burning, rests]
  exact congrArg Host.Outcome.next (answer_of_requests h.2 _ (by decide))

end

/-- Settles O58: an accepted RELOAD is the load and its answer; what READ names decides its reply. -/
theorem reloadAndRead : Obligations.ReloadAndRead := by
  refine ⟨fun s tag rest h => ⟨fun burn => ?_, fun rests away => ?_, fun rests idle => ?_⟩, fun s tag name rest h =>
    ⟨fun noName => ?_, fun isName burn => ?_, fun i slot rests => ?_, fun protection rests => ?_⟩⟩
  · rw [exec_profileReload_of_executes h, State.profileReload, State.burning, if_pos burn]
    exact congrArg Host.Outcome.next (answerCode_of_requests h.2 (by decide) _)
  · rw [exec_profileReload_of_executes h, State.profileReload, State.burning, rests, if_neg (by decide), if_pos away]
    exact congrArg Host.Outcome.next (answerCode_of_requests h.2 (by decide) _)
  · have run := exec_profileReload_of_executes h
    rw [profileReload_of_idle rests idle] at run
    have psc := (answer_psc s.load (.shadow s.load.psc.shadow)).trans (load_psc s)
    have conds := answer_conds s.load (.shadow s.load.psc.shadow)
    have bad (wrong : (∃ i : Fin 4, s.psc.profiles[i].crc ≠ profileCrc s.psc.profiles[i].fields)
        ∨ s.psc.protection.crc ≠ protectionCrc s.psc.protection.fields) :
        (s.load.answer (.shadow s.load.psc.shadow)).lku.conds.profileBad = true :=
      (congrArg Conditions.profileBad conds).trans (load_conds ((badStore_iff s.psc).mpr wrong))
    refine ⟨_, run, fun i => ?_, fun good => ?_, fun wrong => ⟨?_, ?_, bad (.inr wrong)⟩, fun i wrong => bad (.inl ⟨i, wrong⟩),
      ?_, ?_, ?_⟩ <;> rw [psc]
    · show (loadShadow s.psc).slots[i].valid = _ ∧ ((loadShadow s.psc).slots[i].valid = true → _)
      rw [loadShadow_slot]
      exact ⟨rfl, fun _ => rfl⟩
    · exact loadShadow_of_good s.psc good
    · exact (loadShadow_of_bad s.psc wrong).1
    · exact (loadShadow_of_bad s.psc wrong).2
  · refine profileRead_of_none h (Option.not_isSome_iff_eq_none.mp (fun isSome => ?_))
    exact absurd ((profileReadBody_isSome_iff name).mp isSome) (Nat.not_le.mpr noName)
  · exact profileRead_of_burn h ((profileReadBody_isSome_iff name).mpr isName) burn
  · exact profileRead_of_slot h (slot ▸ profileReadBody_slot i) rests
  · exact profileRead_of_protection h (protection ▸ rfl) rests

/-! ### The end of a burn (12 R189) -/

section
variable {s : State} {job : BurnJob}

theorem exec_burnComplete_asMeant (burn : s.psc.burn = some job) :
    exec (.burnComplete .asMeant) s = .next (s.burnMatched job) := by
  show execBurnComplete .asMeant s = _
  unfold execBurnComplete
  rw [burn]

theorem exec_burnComplete_profile {i : Fin 4} {meant : ProfileFields} (burn : s.psc.burn = some (.profile i meant))
    (f : ProfileFields) (crc : BitVec 16) :
    exec (.burnComplete (.profile f crc)) s = .next (s.profileReadBack (.profile i meant) i meant f crc) := by
  show execBurnComplete (.profile f crc) s = _
  unfold execBurnComplete
  rw [burn]

theorem exec_burnComplete_protection {meant : ProtectionFields} (burn : s.psc.burn = some job)
    (kind : job = .protect meant ∨ job = .lock meant) (f : ProtectionFields) (crc : BitVec 16) :
    exec (.burnComplete (.protection f crc)) s = .next (s.protectionReadBack job meant f crc) := by
  show execBurnComplete (.protection f crc) s = _
  unfold execBurnComplete
  rw [burn]
  rcases kind with rfl | rfl <;> rfl

/-- What a burn that matches leaves of the link unit beside its notice. -/
theorem burnMatched_link (s : State) (job : BurnJob) : (s.burnMatched job).lku.conds = s.lku.conds
    ∧ s.Noticed (s.burnMatched job) (.burn s.swc.id job true) := by
  have queued {t : State} (same : t.lku = s.lku) : (t.notify (.burn s.swc.id job true)).lku.conds = s.lku.conds
      ∧ s.Noticed (t.notify (.burn s.swc.id job true)) (.burn s.swc.id job true) := by
    obtain ⟨_, _, _, conds, _, _⟩ := notify_requests t (.burn s.swc.id job true)
    exact ⟨conds.trans (congrArg Lku.conds same), (notify_noticed t _).of_lku same.symm⟩
  unfold State.burnMatched
  cases job <;> exact queued (by rfl)

/-- What a burn that fails leaves of the link unit beside its notice; the record as found is no part of it. -/
theorem burnFailed_link {t : State} (lku : t.lku = s.lku) (id : t.swc.id = s.swc.id) (job : BurnJob) :
    (t.burnFailed job).lku.conds = { s.lku.conds with burnFailed := true }
      ∧ s.Noticed (t.burnFailed job) (.burn s.swc.id job false) := by
  rw [← lku, ← id]
  obtain ⟨_, _, _, conds, _, _⟩ :=
    notify_requests (({ t with psc.burn := none } : State).setBurnFailed true) (.burn t.swc.id job false)
  have noticed : t.Noticed (t.burnFailed job) (.burn t.swc.id job false) :=
    notify_noticed (({ t with psc.burn := none } : State).setBurnFailed true) _
  exact ⟨conds, noticed.of_lku lku.symm⟩

end

/-- Settles O59: a read-back that finds what was meant is a match, any other one is stored with a bad CRC. -/
theorem burnCompletes : Obligations.BurnCompletes := by
  refine ⟨fun s i f burn => ⟨?_, fun g crc found => ?_⟩, fun s job f burn kind => ⟨?_, fun g crc found => ?_⟩⟩
  · have matched : s.profileReadBack (.profile i f) i f f (profileCrc f) = s.burnMatched (.profile i f) := if_pos ⟨rfl, rfl⟩
    obtain ⟨conds, noticed⟩ := burnMatched_link s (.profile i f)
    exact ⟨_, exec_burnComplete_asMeant burn, (exec_burnComplete_profile burn f _).trans (congrArg Host.Outcome.next matched),
      burnMatched_profile_psc s i f, conds, noticed⟩
  · generalize record : ({ fields := g, crc := badCrc (profileCrc g) crc } : StoredProfile) = r
    have failed : s.profileReadBack (.profile i f) i f g crc
        = ({ s with psc.profiles := s.psc.profiles.set i r } : State).burnFailed (.profile i f) := by
      rw [← record]
      exact if_neg (fun ⟨same, good⟩ => found.elim (· same) (· good))
    obtain ⟨conds, noticed⟩ := burnFailed_link (s := s) (t := { s with psc.profiles := s.psc.profiles.set i r }) rfl rfl
      (.profile i f)
    have stored : (s.psc.profiles.set i r)[i] = r := Vector.getElem_set_self _
    refine ⟨_, (exec_burnComplete_profile burn g crc).trans (congrArg Host.Outcome.next failed), ?_, ?_, conds, noticed⟩ <;>
      rw [burnFailed_psc]
    · rw [← record]
      rfl
    · show (s.psc.profiles.set i r)[i].crc ≠ profileCrc (s.psc.profiles.set i r)[i].fields
      rw [stored, ← record]
      exact badCrc_ne _ _
  · have matched : s.protectionReadBack job f f (protectionCrc f) = s.burnMatched job := if_pos ⟨rfl, rfl⟩
    obtain ⟨conds, noticed⟩ := burnMatched_link s job
    exact ⟨_, exec_burnComplete_asMeant burn,
      (exec_burnComplete_protection burn kind f _).trans (congrArg Host.Outcome.next matched),
      burnMatched_protection_psc s kind, conds, noticed⟩
  · have failed : s.protectionReadBack job f g crc = ({ s with
        psc.protection := { fields := g, crc := badCrc (protectionCrc g) crc } } : State).burnFailed job :=
      if_neg (fun ⟨same, good⟩ => found.elim (· same) (· good))
    obtain ⟨conds, noticed⟩ := burnFailed_link (s := s) (t := { s with
      psc.protection := { fields := g, crc := badCrc (protectionCrc g) crc } }) rfl rfl job
    refine ⟨_, (exec_burnComplete_protection burn kind g crc).trans (congrArg Host.Outcome.next failed), ?_, ?_, conds, noticed⟩ <;>
      rw [burnFailed_psc]
    · rfl
    · exact badCrc_ne _ _

end Sys2Proof.Proofs
end
